-- ==== Sys2Proof/Word.lean ====
section
/-! DEFINITION. The bit vectors of the block, one name per width the spec gives (`00_scope.md` R6, R7, R9).
Every value is unsigned; bit 0 is the least significant bit (R9); there is no arithmetic on any of them (R88). -/

namespace Sys2Proof

/-- A state identifier, `SW` = 4 bits: the content of the state register `cur`, and a `next` entry (R7, R13). -/
abbrev StateId := BitVec 4

/-- An input vector, `NIN` = 3 bits: `in[0]` west, `in[1]` south, `in[2]` pedestrian (R6, R11, R32). -/
abbrev InVec := BitVec 3

/-- A decode word `DW[6:0] = {cur[3:0], in[2:0]}` (R42). -/
abbrev DecodeWord := BitVec 7

/-- A `traffic_output` pattern, `TW` = 6 bits (R7, R49). -/
abbrev TrafficPattern := BitVec 6

/-- A `walk_output` pattern, `WW` = 2 bits (R7, R50). -/
abbrev WalkPattern := BitVec 2

/-- A `hold_duration`, `HW` = 16 bits, in units of 10 ms (R7, R46). -/
abbrev Hold := BitVec 16

/-- A packed table row, `ROWW` = 56 bits (R7, R47). -/
abbrev RowWord := BitVec 56

end Sys2Proof
end

