-- ==== Sys2Proof/Config.lean ====
section
/-! DEFINITION. What is fixed for one machine: the numeric parameters of `00_scope.md` R6 and R7, the type of the state
table (a parameter of the step relation, not state: R8, R20), and the free values, which stand for what the surroundings of
the block do on their own (R90). A free value has no body, so no proof can see what it is. -/

namespace Sys2Proof

namespace Config

/-- `NSTATES`: the number of states, identifiers 0..12 (R6). -/
def nStates : Nat := 13
/-- `NIN`: the number of input bits (R6). -/
def nIn : Nat := 3
/-- `NVEC`: the number of input vectors of a state (R6). -/
def nVec : Nat := 8
/-- `NCLEAR`: the countdown sub-states between walk and the terminal don't-walk (R6). -/
def nClear : Nat := 7
/-- `UNIT_MS`: milliseconds in a hold unit; timing only, no rule depends on it (R6). -/
def unitMs : Nat := 10

/-- FREE VALUE (R90, R105): the level of `rst` at the n-th rising edge, where the surroundings have announced none. -/
opaque freeRst : Nat → Bool
/-- FREE VALUE (R90 (b), R111): the level of `advance` at the n-th rising edge, where none is announced. -/
opaque freeAdvance : Nat → Bool
/-- FREE VALUE (R90 (a), U4): the level of `in[2:0]` at the n-th rising edge, where none is announced: any of 0..7. -/
opaque freeIn : Nat → InVec

end Config

/-- One row of the state table, a record of four fields (R46). `next` has its eight entries by its type (R84 WF3); an entry
is `SW` bits wide, so an ill-formed table can name 13, 14 or 15. -/
structure Row where
  /-- `traffic_output`. -/
  traffic : TrafficPattern
  /-- `walk_output`. -/
  walk : WalkPattern
  /-- `hold_duration`, in units. -/
  hold : Hold
  /-- `transition_table`: the successor for each input vector 0..7. -/
  next : Vector StateId 8
deriving DecidableEq, Repr

/-- The state table: 13 rows by its type (R29, R84 WF1), indexed by state identifier. -/
abbrev Table := Vector Row 13

end Sys2Proof
end

