-- ==== Sys2Proof/Syntax.lean ====
section
/-! DEFINITION. The instructions. On this block the 13 states stand where instructions stand: the state identifier is the
opcode and the sampled input vector is the operand (`30_encoding.md`, head and R42 to R45). One constructor per row of
`spec/opcode_table.json`, in its order, format `SI`; the argument is the operand `v = {p, s, w}` (R43, R44). -/

namespace Sys2Proof

inductive Instr where
  /-- `GO_W` (id 0), west green (R58). -/
  | goW (v : InVec)
  /-- `WAIT_W` (id 1), west yellow (R59). -/
  | waitW (v : InVec)
  /-- `GO_S` (id 2), south green (R60). -/
  | goS (v : InVec)
  /-- `WAIT_S` (id 3), south yellow (R61). -/
  | waitS (v : InVec)
  /-- `WALK` (id 4) (R65). -/
  | walk (v : InVec)
  /-- `C1` (id 5), first countdown state (R66). -/
  | c1 (v : InVec)
  /-- `C2` (id 6) (R67). -/
  | c2 (v : InVec)
  /-- `C3` (id 7) (R68). -/
  | c3 (v : InVec)
  /-- `C4` (id 8) (R69). -/
  | c4 (v : InVec)
  /-- `C5` (id 9) (R70). -/
  | c5 (v : InVec)
  /-- `C6` (id 10) (R71). -/
  | c6 (v : InVec)
  /-- `C7` (id 11), last countdown state (R72). -/
  | c7 (v : InVec)
  /-- `DONT_WALK` (id 12), terminal don't-walk (R73). -/
  | dontWalk (v : InVec)
deriving DecidableEq, Repr

end Sys2Proof
end

