-- ==== Sys2Proof/Decode.lean ====
section
/-! DEFINITION. Encodings (`30_encoding.md`): the identifiers of the states, the decode word `DW = {cur, in}`, the decoder
(total on every 7-bit word, rejecting by name) and, after it, the encoder. -/

namespace Sys2Proof

/-! The identifiers of the 13 states (R45; the numbering is the spec's decision D5). -/

def idGoW : StateId := 0b0000#4
def idWaitW : StateId := 0b0001#4
def idGoS : StateId := 0b0010#4
def idWaitS : StateId := 0b0011#4
def idWalk : StateId := 0b0100#4
def idC1 : StateId := 0b0101#4
def idC2 : StateId := 0b0110#4
def idC3 : StateId := 0b0111#4
def idC4 : StateId := 0b1000#4
def idC5 : StateId := 0b1001#4
def idC6 : StateId := 0b1010#4
def idC7 : StateId := 0b1011#4
def idDontWalk : StateId := 0b1100#4

/-- `S_INIT`, the value of the cursor at loop entry: the "go west" state (R6, R24). -/
def sInit : StateId := idGoW

/-! The decode word. -/

/-- `DW[6:0] = {cur[3:0], in[2:0]}`, `cur` in the high bits (R9, R42). -/
def decodeWord (cur : StateId) (v : InVec) : DecodeWord := cur ++ v

/-- `DW[6:3]`, the field `state` (R43). -/
def stateField (dw : DecodeWord) : StateId := dw.extractLsb' 3 4

/-- `DW[2:0] = {p, s, w}`, the operand, unsigned, unscaled, unextended (R43, R44). -/
def operandField (dw : DecodeWord) : InVec := dw.extractLsb' 0 3

/-- One row of the opcode table, as a decoder uses it (R55): a word belongs to the row when `DW & mask = pattern`. -/
structure OpRow where
  mnemonic : String
  pattern  : DecodeWord
  mask     : DecodeWord
  build    : InVec → Instr

/-- `spec/opcode_table.json`: the mask is `0x78` for every state and the pattern is `8 * id` (R43, R55). -/
def opcodeTable : List OpRow :=
  [ ⟨"GO_W",      0x00#7, 0x78#7, .goW⟩,
    ⟨"WAIT_W",    0x08#7, 0x78#7, .waitW⟩,
    ⟨"GO_S",      0x10#7, 0x78#7, .goS⟩,
    ⟨"WAIT_S",    0x18#7, 0x78#7, .waitS⟩,
    ⟨"WALK",      0x20#7, 0x78#7, .walk⟩,
    ⟨"C1",        0x28#7, 0x78#7, .c1⟩,
    ⟨"C2",        0x30#7, 0x78#7, .c2⟩,
    ⟨"C3",        0x38#7, 0x78#7, .c3⟩,
    ⟨"C4",        0x40#7, 0x78#7, .c4⟩,
    ⟨"C5",        0x48#7, 0x78#7, .c5⟩,
    ⟨"C6",        0x50#7, 0x78#7, .c6⟩,
    ⟨"C7",        0x58#7, 0x78#7, .c7⟩,
    ⟨"DONT_WALK", 0x60#7, 0x78#7, .dontWalk⟩ ]

/-- What the decoder answers: an instruction, or the name of the reason why there is none. -/
inductive Decoded where
  /-- A legal word (R52). -/
  | instr (i : Instr)
  /-- `DW[6:3]` is 13, 14 or 15: a reserved identifier, which names no row (R51). -/
  | reservedState (id : StateId)
deriving DecidableEq, Repr

/-- The row of the opcode table that a word belongs to. -/
def opRow? (dw : DecodeWord) : Option OpRow :=
  opcodeTable.find? (fun r => dw &&& r.mask == r.pattern)

/-- The decoder: "find the row whose `match` equals `DW & mask`; if none, the word is illegal" (R55). -/
def decode (dw : DecodeWord) : Decoded :=
  match opRow? dw with
  | some r => .instr (r.build (operandField dw))
  | none   => .reservedState (stateField dw)

/-- The instruction a decoder's answer holds, if any. -/
def Decoded.instr? : Decoded → Option Instr
  | .instr i         => some i
  | .reservedState _ => none

/-- The decoder on a word given as a number, bit 0 the least significant. The decode word has bits 6..0 only (R42: one fixed
length, 7 bits), so a number's bits above 6 have no place in it and are dropped.
DESIGN CHOICE (log entry 6): `nbits` says how many bits the table gives and adds nothing. -/
def decodeTableWord (_nbits w : Nat) : Option Instr := (decode (BitVec.ofNat 7 w)).instr?

/-! The encoder. -/

/-- The identifier of the state an instruction stands for (R45). -/
def Instr.id : Instr → StateId
  | .goW _      => idGoW
  | .waitW _    => idWaitW
  | .goS _      => idGoS
  | .waitS _    => idWaitS
  | .walk _     => idWalk
  | .c1 _       => idC1
  | .c2 _       => idC2
  | .c3 _       => idC3
  | .c4 _       => idC4
  | .c5 _       => idC5
  | .c6 _       => idC6
  | .c7 _       => idC7
  | .dontWalk _ => idDontWalk

/-- The operand of an instruction, the sampled input vector (R44). -/
def Instr.operand : Instr → InVec
  | .goW v      => v
  | .waitW v    => v
  | .goS v      => v
  | .waitS v    => v
  | .walk v     => v
  | .c1 v       => v
  | .c2 v       => v
  | .c3 v       => v
  | .c4 v       => v
  | .c5 v       => v
  | .c6 v       => v
  | .c7 v       => v
  | .dontWalk v => v

/-- The encoder: the decode word of an instruction, `{id, v}` (R42, R43). -/
def encode (i : Instr) : DecodeWord := decodeWord i.id i.operand

end Sys2Proof
end

