-- ==== Sys2Proof/Machine/State.lean ====
section
/-! DEFINITION. The state. The block has ONE piece of state, the cursor (`10_state.md` R13, R16 to R21). The other fields are
the model's own and stand for the surroundings: the pin levels to come, the index of the next clock edge, and a record of the
accesses made. No operation of the block reads a field but `cur` and the levels of the pins. -/

namespace Sys2Proof.Machine

/-- The levels of the input pins at one rising edge of `clk` (R22). -/
structure Pins where
  /-- Synchronous reset, active high. -/
  rst : Bool
  /-- The strobe of the external timing primitive: the hold of the current state has elapsed (R77). -/
  advance : Bool
  /-- `in[2:0]`: bit 0 west, bit 1 south, bit 2 pedestrian (R32). -/
  inp : InVec
deriving DecidableEq, Repr

/-- An access of the engine, as the surroundings see it (R28, R38, R75). -/
inductive Access where
  /-- Output phase: `OutWrite(TRAFFIC, traffic)` and `OutWrite(WALK, walk)`. One event, since both ports change at one edge
  and no order of the two writes is to be assumed (R31, R35, N22). -/
  | present (traffic : TrafficPattern) (walk : WalkPattern)
  /-- Wait phase: `Wait(hold)` was called with the row's hold and has returned (R75, R100). -/
  | wait (hold : Hold)
  /-- Input phase: one sample of the three sensor bits (R30, R35). -/
  | inRead (v : InVec)
  /-- Transition phase: the cursor was written (R14, R38). -/
  | curWrite (s : StateId)
  /-- A rising edge with `rst = 1`: the iteration in progress is abandoned and the cursor takes `S_INIT` (R105, R109). -/
  | reset
deriving DecidableEq, Repr

structure State where
  /-- THE STATE OF THE BLOCK: the state register, the engine cursor (R13). -/
  cur : StateId
  /-- MODEL'S OWN (log entry 3): the pin levels at the coming rising edges, the next edge first. Past its end the levels are
  the free values of `Config`. -/
  stimulus : List Pins
  /-- MODEL'S OWN (log entry 4): the index of the next rising edge, the argument of the free values. -/
  edge : Nat
  /-- MODEL'S OWN (log entry 5): the accesses made so far, oldest first. Written, never read. -/
  accesses : List Access
deriving DecidableEq, Repr

/-- Why the machine stops. -/
inductive Fault where
  /-- `fault InvalidState(cur)`: raised by the fetch at an edge with `rst = 0` and `advance = 1` when the cursor holds 13, 14
  or 15 (R94, D15). Safe: the hardware goes on with unspecified values, the model stops. Unreachable under `WF` (R86 (a)). -/
  | invalidState (cur : StateId)
deriving DecidableEq, Repr

/-- Why the machine gives no meaning. -/
inductive Refusal where
  /-- Raised by an arm of `exec` whose instruction has no meaning yet; no arm does. Safe: the model stops. -/
  | notModelled (mnemonic : String)
deriving DecidableEq, Repr

/-- The outcome of a step of this machine. -/
abbrev Result := Host.Outcome State Fault Refusal

/-- Right after reset: `cur = S_INIT = GO_W` (R24, R27). The fields of the surroundings are at rest: no pin level is announced,
no edge has been counted, no access recorded (DESIGN CHOICE, log entries 3, 4, 5). -/
def State.reset : State := ⟨sInit, [], 0, []⟩

end Sys2Proof.Machine
end

