-- ==== Sys2Proof/Machine/Operands.lean ====
section
/-! DEFINITION. The one operand form: the input vector `v` (`00_scope.md` R11, `30_encoding.md` R44), its three bits, and its
use as the index of a row's `next` array (R48). -/

namespace Sys2Proof

/-- `W(v) = v[0]`: a vehicle is present in the west direction (R11, R32). -/
def inW (v : InVec) : Bool := v.getLsbD 0
/-- `S(v) = v[1]`: a vehicle is present in the south direction (R11, R32). -/
def inS (v : InVec) : Bool := v.getLsbD 1
/-- `P(v) = v[2]`: a pedestrian requests (R11, R32). -/
def inP (v : InVec) : Bool := v.getLsbD 2

/-- The input vector of three sensor levels, `v = 4*P + 2*S + W`, that is `{P, S, W}` (R11, R32). -/
def inVecOf (p s w : Bool) : InVec := BitVec.ofBool p ++ BitVec.ofBool s ++ BitVec.ofBool w

/-- `TABLE[s].next[v]` of a row: all three bits select (R44, R48). -/
def Row.succ (r : Row) (v : InVec) : StateId := r.next[v.toFin]

end Sys2Proof
end

