-- ==== Sys2Proof/Machine/Table.lean ====
section
/-! DEFINITION. The table space (`20_memory.md` R28, R29) and the two combinational blocks that read it: the transition
decoder (R79) and the output multiplexer (R80). `TABLE` is a parameter (R8); `tableRef` is the concrete table `TABLE_REF`
that the spec gives row by row (R58 to R61, R65 to R73). Its patterns and holds, and 29 of its 104 cells, are the spec's own
decisions D8 to D14 (log entry 1). -/

namespace Sys2Proof

/-- The row of a state: rows 0..12 exist, 13..15 do not (R29, R37). -/
def Table.row? (T : Table) (s : StateId) : Option Row := T[s.toNat]?

/-- `NEXT(s, v) = TABLE[s].next[v]`, the transition decoder; no output is specified for 13..15 (R79, R94). -/
def Table.succ? (T : Table) (s : StateId) (v : InVec) : Option StateId := (T.row? s).map (·.succ v)

/-- What the block shows in a state: the three output ports (R22, R80). -/
structure Outputs where
  traffic : TrafficPattern
  walk : WalkPattern
  hold : Hold
deriving DecidableEq, Repr

/-- The outputs of a row (R80). -/
def Row.outputs (r : Row) : Outputs := ⟨r.traffic, r.walk, r.hold⟩

/-- `OUT(s)`, the output multiplexer, a function of the cursor alone; nothing is specified for 13..15 (R80, R94). -/
def Table.out? (T : Table) (s : StateId) : Option Outputs := (T.row? s).map Row.outputs

/-! The rows of `TABLE_REF`, `next` in the order `v` = 0..7. -/

/-- R58. -/
def rowGoW : Row :=
  ⟨0b001100#6, 0b01#2, 300#16, #v[idWaitW, idGoW, idWaitW, idGoW, idWaitW, idGoW, idWaitW, idGoW]⟩
/-- R59. -/
def rowWaitW : Row :=
  ⟨0b010100#6, 0b01#2, 100#16, #v[idGoS, idGoS, idGoS, idGoS, idWalk, idWalk, idWalk, idWalk]⟩
/-- R60. -/
def rowGoS : Row :=
  ⟨0b100001#6, 0b01#2, 300#16, #v[idWaitS, idWaitS, idGoS, idGoS, idWaitS, idWaitS, idGoS, idGoS]⟩
/-- R61. -/
def rowWaitS : Row :=
  ⟨0b100010#6, 0b01#2, 100#16, #v[idGoW, idGoW, idGoW, idGoW, idWalk, idWalk, idWalk, idWalk]⟩
/-- R65. -/
def rowWalk : Row := ⟨0b100100#6, 0b10#2, 300#16, #v[idC1, idC1, idC1, idC1, idC1, idC1, idC1, idC1]⟩
/-- R66. -/
def rowC1 : Row := ⟨0b100100#6, 0b00#2, 25#16, #v[idC2, idC2, idC2, idC2, idC2, idC2, idC2, idC2]⟩
/-- R67. -/
def rowC2 : Row := ⟨0b100100#6, 0b01#2, 25#16, #v[idC3, idC3, idC3, idC3, idC3, idC3, idC3, idC3]⟩
/-- R68. -/
def rowC3 : Row := ⟨0b100100#6, 0b00#2, 25#16, #v[idC4, idC4, idC4, idC4, idC4, idC4, idC4, idC4]⟩
/-- R69. -/
def rowC4 : Row := ⟨0b100100#6, 0b01#2, 25#16, #v[idC5, idC5, idC5, idC5, idC5, idC5, idC5, idC5]⟩
/-- R70. -/
def rowC5 : Row := ⟨0b100100#6, 0b00#2, 25#16, #v[idC6, idC6, idC6, idC6, idC6, idC6, idC6, idC6]⟩
/-- R71. -/
def rowC6 : Row := ⟨0b100100#6, 0b01#2, 25#16, #v[idC7, idC7, idC7, idC7, idC7, idC7, idC7, idC7]⟩
/-- R72. -/
def rowC7 : Row :=
  ⟨0b100100#6, 0b00#2, 25#16,
    #v[idDontWalk, idDontWalk, idDontWalk, idDontWalk, idDontWalk, idDontWalk, idDontWalk, idDontWalk]⟩
/-- R73; the tie-break at input 0 is kept as it is (R74). -/
def rowDontWalk : Row :=
  ⟨0b100100#6, 0b01#2, 100#16, #v[idGoS, idGoW, idGoS, idGoS, idGoS, idGoW, idGoS, idGoS]⟩

/-- `TABLE_REF`, row `n` the state of identifier `n` (R8, R45). -/
def tableRef : Table :=
  #v[rowGoW, rowWaitW, rowGoS, rowWaitS, rowWalk, rowC1, rowC2, rowC3, rowC4, rowC5, rowC6, rowC7, rowDontWalk]

end Sys2Proof
end

