-- ==== Sys2Proof/Machine/Ops.lean ====
section
/-! DEFINITION. The named operations every meaning is made of: the accesses to the three spaces (`20_memory.md` R28 to R31),
the four phases of an iteration (`42_drive_loop.md` R75), the pins and the clock edge (R76 to R78), and reset, the only event
that redirects control other than a table transition (`60_exceptions.md` R97). There is no exception entry and no return from
one (R93, R97, R98), and no byte-addressed memory (R28). -/

namespace Sys2Proof.Machine

/-- The access is added to the record of the surroundings (log entry 5). -/
def State.record (s : State) (a : Access) : State := { s with accesses := s.accesses ++ [a] }

/-! The four phases of an iteration (R75). -/

/-- 1. Output phase: the two patterns of the row are presented on their ports (R31, R75). -/
def State.outputPhase (s : State) (r : Row) : State := s.record (.present r.traffic r.walk)

/-- 2. Wait phase: `Wait(hold)`, the hold handed unchanged to the timing primitive, which returns (R75, R88, R100). -/
def State.waitPhase (s : State) (r : Row) : State := s.record (.wait r.hold)

/-- 3. Input phase: `v <- InRead()`, one sample of three bits (R30, R75). -/
def State.inputPhase (s : State) (v : InVec) : State := s.record (.inRead v)

/-- 4. Transition phase: `cur <- n` (R14, R75). -/
def State.transitionPhase (s : State) (n : StateId) : State := ({ s with cur := n } : State).record (.curWrite n)

/-- One iteration spent in the state of row `r`, with sample `v`: the four phases in order (R38, R75). -/
def State.iterate (s : State) (r : Row) (v : InVec) : State :=
  (((s.outputPhase r).waitPhase r).inputPhase v).transitionPhase (r.succ v)

/-- The shared meaning of every state: an iteration has no error path (R92, R93). -/
def iteration (r : Row) (v : InVec) (s : State) : Result := .next (s.iterate r v)

/-! The pins and the clock. -/

/-- The levels of the pins at the next rising edge: the first of `stimulus`, or free values (R90; log entry 3). -/
def State.pins (s : State) : Pins :=
  match s.stimulus with
  | p :: _ => p
  | []     => ⟨Config.freeRst s.edge, Config.freeAdvance s.edge, Config.freeIn s.edge⟩

/-- The rising edge passes: its pin levels are used up (log entries 3 and 4). -/
def State.passEdge (s : State) : State := { s with stimulus := s.stimulus.tail, edge := s.edge + 1 }

/-- The word on the input of the transition decoder, `{cur, in}`: what the block fetches at an edge (R42, R79). -/
def State.fetchWord (s : State) : DecodeWord := decodeWord s.cur s.pins.inp

/-- The outputs of the block, combinational functions of the cursor; none is specified for 13..15 (R22, R80, R94). -/
def State.outputs (T : Table) (s : State) : Option Outputs := T.out? s.cur

/-! Reset. -/

/-- The iteration in progress, given up by a reset: its patterns have been presented, its hold is not completed and no sample
is taken (R109). For a cursor of 13..15 nothing is known to have been presented (R94). -/
def State.abandon (T : Table) (s : State) : State :=
  match T.row? s.cur with
  | some r => s.outputPhase r
  | none   => s

/-- A rising edge with `rst = 1`: `cur <- S_INIT`, whatever `cur`, `in` and `advance` are (R76, R96, R105). -/
def State.takeReset (T : Table) (s : State) : State := ({ s.abandon T with cur := sInit } : State).record .reset

/-- A rising edge of `clk` (R76): reset first, then `advance`, else the register holds. `onAdvance` is what the transition
does, given the state after the edge's levels are used up. -/
def risingEdge (T : Table) (onAdvance : State → Result) (s : State) : Result :=
  if s.pins.rst then .next (s.passEdge.takeReset T)
  else if s.pins.advance then onAdvance s.passEdge
  else .next s.passEdge

/-! Placing a word where it is fetched. -/

/-- The decode word `w` (bits above 6 have no place and are dropped; log entry 6) is put where the next edge fetches: its
state field in the cursor, its operand on the pins, with `rst = 0` and `advance = 1`. -/
def State.placeWord (s : State) (w : Nat) : State :=
  { s with cur := stateField (BitVec.ofNat 7 w),
           stimulus := ⟨false, true, operandField (BitVec.ofNat 7 w)⟩ :: s.stimulus.tail }

end Sys2Proof.Machine
end

