-- ==== Sys2Proof/Machine/Pedestrian.lean ====
section
/-! DEFINITION. The meanings of the nine pedestrian-phase states (`41_pedestrian_phase_states.md`): each is one iteration (R75) on
the state's row of `TABLE_REF`. In `WALK` and `C1`..`C7` the sample is taken and has no effect (R62). -/

namespace Sys2Proof.Machine

/-- `WALK` (R65): `cur <- C1`. -/
def execWalk (v : InVec) (s : State) : Result := iteration rowWalk v s

/-- `C1` (R66): `cur <- C2`. -/
def execC1 (v : InVec) (s : State) : Result := iteration rowC1 v s

/-- `C2` (R67): `cur <- C3`. -/
def execC2 (v : InVec) (s : State) : Result := iteration rowC2 v s

/-- `C3` (R68): `cur <- C4`. -/
def execC3 (v : InVec) (s : State) : Result := iteration rowC3 v s

/-- `C4` (R69): `cur <- C5`. -/
def execC4 (v : InVec) (s : State) : Result := iteration rowC4 v s

/-- `C5` (R70): `cur <- C6`. -/
def execC5 (v : InVec) (s : State) : Result := iteration rowC5 v s

/-- `C6` (R71): `cur <- C7`. -/
def execC6 (v : InVec) (s : State) : Result := iteration rowC6 v s

/-- `C7` (R72): `cur <- DONT_WALK`. -/
def execC7 (v : InVec) (s : State) : Result := iteration rowC7 v s

/-- `DONT_WALK` (R73, R74): `cur <- (if S(v) = 0 and W(v) = 1 then GO_W else GO_S)`. -/
def execDontWalk (v : InVec) (s : State) : Result := iteration rowDontWalk v s

end Sys2Proof.Machine
end

