-- ==== Sys2Proof/Machine/Vehicle.lean ====
section
/-! DEFINITION. The meanings of the four vehicle-phase states (`40_vehicle_phase_states.md`): each is one iteration (R75) on the
state's row of `TABLE_REF`. -/

namespace Sys2Proof.Machine

/-- `GO_W` (R58): `cur <- (if W(v) = 1 then GO_W else WAIT_W)`. -/
def execGoW (v : InVec) (s : State) : Result := iteration rowGoW v s

/-- `WAIT_W` (R59): `cur <- (if P(v) = 1 then WALK else GO_S)`. -/
def execWaitW (v : InVec) (s : State) : Result := iteration rowWaitW v s

/-- `GO_S` (R60): `cur <- (if S(v) = 1 then GO_S else WAIT_S)`. -/
def execGoS (v : InVec) (s : State) : Result := iteration rowGoS v s

/-- `WAIT_S` (R61): `cur <- (if P(v) = 1 then WALK else GO_W)`. -/
def execWaitS (v : InVec) (s : State) : Result := iteration rowWaitS v s

end Sys2Proof.Machine
end

