-- ==== Sys2Proof/Machine/Dispatch.lean ====
section
/-! DEFINITION. One arm per instruction. -/

namespace Sys2Proof.Machine

def exec (i : Instr) (s : State) : Host.Outcome State Fault Refusal :=
  match i with
  | .goW v => Sys2Proof.Machine.execGoW v s
  | .waitW v => Sys2Proof.Machine.execWaitW v s
  | .goS v => Sys2Proof.Machine.execGoS v s
  | .waitS v => Sys2Proof.Machine.execWaitS v s
  | .walk v => Sys2Proof.Machine.execWalk v s
  | .c1 v => Sys2Proof.Machine.execC1 v s
  | .c2 v => Sys2Proof.Machine.execC2 v s
  | .c3 v => Sys2Proof.Machine.execC3 v s
  | .c4 v => Sys2Proof.Machine.execC4 v s
  | .c5 v => Sys2Proof.Machine.execC5 v s
  | .c6 v => Sys2Proof.Machine.execC6 v s
  | .c7 v => Sys2Proof.Machine.execC7 v s
  | .dontWalk v => Sys2Proof.Machine.execDontWalk v s

end Sys2Proof.Machine
end

