-- ==== Sys2Proof/Machine/Loop.lean ====
section
/-! DEFINITION. The drive loop, one rising edge at a time (`42_drive_loop.md` R75 to R81), in two forms: the machine that decodes
the word `{cur, in}` and runs the instruction, with `TABLE_REF`; and the machine over any table `T`, which is the parameter of
the step relation (`00_scope.md` R8). -/

namespace Sys2Proof.Machine

/-- What an edge with `rst = 0` and `advance = 1` does in the block whose next fetch is `dw`: the instruction of a legal word
runs (R79, R81); a reserved identifier is the fault `InvalidState` (R94). -/
def runWord (dw : DecodeWord) (s : State) : Result :=
  match decode dw with
  | .instr i          => exec i s
  | .reservedState id => .fault (.invalidState id)

/-- One rising edge of the block with `TABLE_REF` (R76; log entries 1 and 2). -/
def clockEdge (s : State) : Result := risingEdge tableRef (runWord s.fetchWord) s

/-- What an edge with `rst = 0` and `advance = 1` does in the block with table `T` and sample `v`: `cur <- TABLE[cur].next[v]`
(R75, R79), or the fault `InvalidState` (R94). -/
def runRow (T : Table) (v : InVec) (s : State) : Result :=
  match T.row? s.cur with
  | some r => iteration r v s
  | none   => .fault (.invalidState s.cur)

/-- One rising edge of the block with table `T` (R8, R76). -/
def stepWith (T : Table) (s : State) : Result := risingEdge T (runRow T s.pins.inp) s

/-- `n` rising edges of a machine with the given step, stopping at the first fault or refusal; a run of the block has no end of
its own (R81, R91). -/
def runSteps (f : State → Result) : Nat → State → Result
  | 0, s => .next s
  | n + 1, s =>
    match f s with
    | .next t => runSteps f n t
    | .fault r => .fault r
    | .refused r => .refused r

end Sys2Proof.Machine
end

