-- ==== Sys2Proof/Machine/Step.lean ====
section
/-! DEFINITION. The step: one rising edge of `clk` (`42_drive_loop.md` R76). The step of R81, `step(s, v) = NEXT(s, v)`, is the edge with
`rst = 0` and `advance = 1` (R22, R77; log entry 2). -/

namespace Sys2Proof.Machine

def step (s : State) : Host.Outcome State Fault Refusal := clockEdge s

/-- The state with the decode word `w` where the next step fetches it (log entry 6). -/
def State.withFetchWord (s : State) (_nbits w : Nat) : State := s.placeWord w

end Sys2Proof.Machine
end

