-- ==== Sys2Proof/Machine/Packed.lean ====
section
/-! DEFINITION. A table row as one 56-bit word, for an implementation that keeps the table in a read-only memory
(`30_encoding.md` R47, R48; the layout is the spec's decision D18). -/

namespace Sys2Proof

/-- `row[55:50]` traffic, `row[49:48]` walk, `row[47:32]` hold, then `next[7]` down to `next[0]`, 4 bits each (R47). -/
def Row.pack (r : Row) : RowWord :=
  r.traffic ++ r.walk ++ r.hold ++ r.next[7] ++ r.next[6] ++ r.next[5] ++ r.next[4] ++
    r.next[3] ++ r.next[2] ++ r.next[1] ++ r.next[0]

/-- `next[v] = row[4*v + 3 : 4*v]` (R48). -/
def packedSucc (w : RowWord) (v : InVec) : StateId := w.extractLsb' (4 * v.toNat) 4

/-- The row that a packed word holds (R47). -/
def unpackRow (w : RowWord) : Row :=
  ⟨w.extractLsb' 50 6, w.extractLsb' 48 2, w.extractLsb' 32 16,
    #v[packedSucc w 0, packedSucc w 1, packedSucc w 2, packedSucc w 3,
       packedSucc w 4, packedSucc w 5, packedSucc w 6, packedSucc w 7]⟩

end Sys2Proof
end

