-- ==== Sys2Proof/Machine/Flags.lean ====
section
/-! DEFINITION. The block has no flags, condition codes or predicates (`10_state.md` R17), so there is no flag computation.
What stands here is what the spec computes from a pattern: the lamp predicates over the two output patterns
(`30_encoding.md` R49, R50). 1 = lamp on. -/

namespace Sys2Proof

/-- `stopW(t) = (t[5] = 1)`: west red (R49). -/
def stopW (t : TrafficPattern) : Bool := t.getLsbD 5
/-- `cautionW(t) = (t[4] = 1)`: west yellow (R49). -/
def cautionW (t : TrafficPattern) : Bool := t.getLsbD 4
/-- `goW(t) = (t[3] = 1)`: west green (R49). -/
def goW (t : TrafficPattern) : Bool := t.getLsbD 3
/-- `stopS(t) = (t[2] = 1)`: south red (R49). -/
def stopS (t : TrafficPattern) : Bool := t.getLsbD 2
/-- `cautionS(t) = (t[1] = 1)`: south yellow (R49). -/
def cautionS (t : TrafficPattern) : Bool := t.getLsbD 1
/-- `goS(t) = (t[0] = 1)`: south green (R49). -/
def goS (t : TrafficPattern) : Bool := t.getLsbD 0

/-- `walkOn(p) = (p[1] = 1)` (R50). -/
def walkOn (p : WalkPattern) : Bool := p.getLsbD 1
/-- `dontWalkOn(p) = (p[0] = 1)` (R50). -/
def dontWalkOn (p : WalkPattern) : Bool := p.getLsbD 0

end Sys2Proof
end

