-- ==== Sys2Proof/Machine/TableRules.lean ====
section
/-! DEFINITION. What a table must satisfy, clause by clause: the well-formedness clauses WF2 and WF4 to WF10
(`42_drive_loop.md` R84) and the pinned cells `PIN` (R85). WF1 (13 rows) and WF3 (8 entries in every row) hold by the type of
a table (`Config.lean`). The block checks none of them at run time (R84, R92). Each is an abbreviation of a decidable
proposition. -/

namespace Sys2Proof

/-- WF2 (closed): "no transition may point outside the defined set". -/
abbrev Table.Closed (T : Table) : Prop := ∀ s : Fin 13, ∀ v : InVec, ((T[s]).succ v).toNat < 13

/-- WF4 (hold): `1 <= hold`; the upper bound `2^16 - 1` is the width of the field. -/
abbrev Table.HoldsPositive (T : Table) : Prop := ∀ s : Fin 13, 1 ≤ (T[s]).hold.toNat

/-- WF5 (mutual exclusion): never both directions green. -/
abbrev Table.MutualExclusion (T : Table) : Prop := ∀ s : Fin 13, ¬ (goW (T[s]).traffic ∧ goS (T[s]).traffic)

/-- WF6 (pedestrian exclusivity): no green while walk is shown. -/
abbrev Table.PedestrianExclusivity (T : Table) : Prop :=
  ∀ s : Fin 13, walkOn (T[s]).walk → ¬ goW (T[s]).traffic ∧ ¬ goS (T[s]).traffic

/-- WF7 (caution before stop): the successor of a green shows that green or its yellow, in each direction. -/
abbrev Table.CautionBeforeStop (T : Table) : Prop :=
  ∀ s n : Fin 13, ∀ v : InVec, ((T[s]).succ v).toNat = n.val →
    (goW (T[s]).traffic → goW (T[n]).traffic ∨ cautionW (T[n]).traffic) ∧
    (goS (T[s]).traffic → goS (T[n]).traffic ∨ cautionS (T[n]).traffic)

/-- WF8 (clearance), with the identifiers of R45 (`WALK` 4, `C1`..`C7` 5..11, `DONT_WALK` 12; log entry 9): walk is shown in
`WALK` and in no later state of the phase, don't-walk in `DONT_WALK`, and each of `WALK`, `C1`..`C7` has eight equal entries,
which name the next one. -/
abbrev Table.Clearance (T : Table) : Prop :=
  walkOn (T[(4 : Fin 13)]).walk ∧
  (∀ s : Fin 13, 5 ≤ s.val → ¬ walkOn (T[s]).walk) ∧
  dontWalkOn (T[(12 : Fin 13)]).walk ∧
  (∀ s : Fin 13, 4 ≤ s.val → s.val ≤ 11 → ∀ v : InVec, ((T[s]).succ v).toNat = s.val + 1)

/-- WF9 (walk pattern): never both walk lamps (the spec's own clause, D7). -/
abbrev Table.WalkPatternLegal (T : Table) : Prop := ∀ s : Fin 13, ¬ (walkOn (T[s]).walk ∧ dontWalkOn (T[s]).walk)

/-- WF10 (start): the start state shows west green. -/
abbrev Table.StartsGoWest (T : Table) : Prop := goW (T[(0 : Fin 13)]).traffic

/-- `PIN`, the vehicle rows: the cells of `GO_W`, `WAIT_W`, `GO_S`, `WAIT_S` that the source fixes (R85). -/
abbrev Table.PinnedVehicle (T : Table) : Prop :=
  T.succ? idGoW 0 = some idWaitW ∧ T.succ? idGoW 3 = some idGoW ∧ T.succ? idGoW 4 = some idWaitW ∧
  T.succ? idWaitW 0 = some idGoS ∧ T.succ? idWaitW 4 = some idWalk ∧
  T.succ? idGoS 0 = some idWaitS ∧ T.succ? idWaitS 0 = some idGoW

/-- `PIN`, the pedestrian rows: the 64 cells of `WALK`, `C1`..`C7` and four of `DONT_WALK` (R85). -/
abbrev Table.PinnedPedestrian (T : Table) : Prop :=
  (∀ v : InVec, T.succ? idWalk v = some idC1 ∧ T.succ? idC1 v = some idC2 ∧ T.succ? idC2 v = some idC3 ∧
    T.succ? idC3 v = some idC4 ∧ T.succ? idC4 v = some idC5 ∧ T.succ? idC5 v = some idC6 ∧
    T.succ? idC6 v = some idC7 ∧ T.succ? idC7 v = some idDontWalk) ∧
  T.succ? idDontWalk 0 = some idGoS ∧ T.succ? idDontWalk 1 = some idGoW ∧
  T.succ? idDontWalk 2 = some idGoS ∧ T.succ? idDontWalk 3 = some idGoS

/-- `PIN`, the lamps: what the source names for the four vehicle states and for `WALK` (R85, last sentence). -/
abbrev Table.PinnedLamps (T : Table) : Prop :=
  goW (T[(0 : Fin 13)]).traffic ∧ cautionW (T[(1 : Fin 13)]).traffic ∧
  goS (T[(2 : Fin 13)]).traffic ∧ cautionS (T[(3 : Fin 13)]).traffic ∧ walkOn (T[(4 : Fin 13)]).walk

end Sys2Proof
end

