-- ==== Sys2Proof/WellFormed.lean ====
section
/-! DEFINITION. Well-formedness. An instruction's operand is 3 bits wide by its type (`42_drive_loop.md` R90: an out-of-range
input value "is impossible"), so the one check on an instruction is that its identifier names a row. What can be ill formed on
this hardware is the table: `WF` (R84) and `PIN` (R85). -/

namespace Sys2Proof

/-- The identifier of the instruction names a row of the table: 0..12 (R45, R51). -/
def Instr.wf (i : Instr) : Bool := i.id.toNat < Config.nStates

/-- `WF(TABLE)`, the conjunction of the clauses of R84 (WF1 and WF3 hold by type). -/
abbrev Table.WF (T : Table) : Prop :=
  T.Closed ∧ T.HoldsPositive ∧ T.MutualExclusion ∧ T.PedestrianExclusivity ∧ T.CautionBeforeStop ∧ T.Clearance ∧
  T.WalkPatternLegal ∧ T.StartsGoWest

/-- `PIN(TABLE)`, the 75 cells and the lamps the source fixes (R85). That `S_INIT` is `GO_W` is `sInit`. -/
abbrev Table.PIN (T : Table) : Prop := T.PinnedVehicle ∧ T.PinnedPedestrian ∧ T.PinnedLamps

end Sys2Proof
end

