-- ==== Sys2Proof/Safety.lean ====
section
/-! DEFINITION. What counts as a safe run, in the terms the claims use (`42_drive_loop.md` R86, R91): a legal cursor, safe lamps,
and an access record that is a trace of the drive loop. -/

namespace Sys2Proof.Machine

/-- The cursor names a state: 0..12 (R13). -/
abbrev State.Legal (s : State) : Prop := s.cur.toNat < 13

/-- The lamps are safe: never both greens, no green with walk, never both walk lamps (R84 WF5, WF6, WF9; R86 (b)). -/
abbrev LampsSafe (o : Outputs) : Prop :=
  ¬ (goW o.traffic ∧ goS o.traffic) ∧ (walkOn o.walk → ¬ goW o.traffic ∧ ¬ goS o.traffic) ∧
  ¬ (walkOn o.walk ∧ dontWalkOn o.walk)

/-- The access is a write of the cursor (R14). -/
def Access.isCurWrite : Access → Bool
  | .curWrite _  => true
  | .present _ _ => false
  | .wait _      => false
  | .inRead _    => false
  | .reset       => false

/-- Replays an access record against table `T` from cursor `c`, and gives the cursor it ends in; none if the record is not a
trace of the drive loop. Each iteration must present the patterns of the cursor's row, wait its hold, take one sample `v` and
write `NEXT(c, v)`, in this order (R38, R75); a reset abandons an iteration whose patterns were presented (R109), or leaves a
reserved identifier (R94). -/
def replay (T : Table) (c : StateId) : List Access → Option StateId
  | [] => some c
  | .present t p :: .wait h :: .inRead v :: .curWrite n :: rest =>
    if T.out? c = some ⟨t, p, h⟩ ∧ T.succ? c v = some n then replay T n rest else none
  | .present t p :: .reset :: rest =>
    if (T.out? c).map (fun o => (o.traffic, o.walk)) = some (t, p) then replay T sInit rest else none
  | .reset :: rest => if T.out? c = none then replay T sInit rest else none
  | _ => none

/-- The record of the state is a trace of the drive loop from reset, and the trace ends in the state's cursor (R38, R81). -/
abbrev State.Traced (T : Table) (s : State) : Prop := replay T sInit s.accesses = some s.cur

end Sys2Proof.Machine
end

