-- ==== Sys2Proof/Certificates/Slice0/Obligations.lean ====
section
/-! DEFINITION. The statements for the provers. A statement that rests on a decision of the spec (D<n> of `92_eei_decisions.md`) or on a
log entry of the model says so in its docstring. -/

open Sys2Proof Sys2Proof.Machine

/-! Reset and the clock edge. -/

/-- R24: at reset the cursor takes the identifier of the "go west" state (its numeral, 0, is decision D5). -/
def Obligations.ResetEntersGoWest : Prop := State.reset.cur = idGoW

/-- R27, with the pattern and the hold of `GO_W` decided by D8 and D9: the ports right after reset. -/
def Obligations.ResetPortsShowGoWest : Prop :=
  State.reset.outputs tableRef = some ⟨0b001100#6, 0b01#2, 300#16⟩

/-- R42, R77 to R79: at an edge with `rst = 0` and `advance = 1`, a step runs the instruction that the word `{cur, in}` decodes to.
Around `exec` the step only uses up the edge's pin levels (log entries 2, 3, 4: the model's choice). -/
def Obligations.StepRunsDecodedInstruction : Prop :=
  ∀ (s : State) (i : Instr), s.pins.rst = false → s.pins.advance = true → decode s.fetchWord = .instr i →
    step s = exec i s.passEdge ∧
    s.passEdge = { s with stimulus := s.stimulus.tail, edge := s.edge + 1 } ∧
    s.fetchWord = s.cur ++ s.pins.inp ∧ i.id = s.cur ∧ i.operand = s.pins.inp ∧ i.wf = true

/-- R76, R96, R105, R109 (decision D3): an edge with `rst = 1` loads the cursor with `GO_W`, whatever `cur`, `advance` and `in`
are. No sample is taken and no hold is completed; what the record shows is the model's choice (log entry 5). -/
def Obligations.ResetWinsOverAdvance : Prop :=
  ∀ s : State, s.pins.rst = true → ∃ t, step s = .next t ∧ t.cur = idGoW ∧
    t.stimulus = s.stimulus.tail ∧ t.edge = s.edge + 1 ∧
    (∀ o, s.outputs tableRef = some o → t.accesses = s.accesses ++ [.present o.traffic o.walk, .reset]) ∧
    (s.outputs tableRef = none → t.accesses = s.accesses ++ [.reset])

/-- R76, R77 (decisions D1, D2): an edge with `rst = 0` and `advance = 0` changes nothing of the block; `in`
has no effect. That such an edge is a step is the model's choice (log entry 2), and that it holds a reserved cursor too is read from R76
by inference (log entry 7, DEDUCED). -/
def Obligations.IdleEdgeHolds : Prop :=
  ∀ s : State, s.pins.rst = false → s.pins.advance = false →
    step s = .next { s with stimulus := s.stimulus.tail, edge := s.edge + 1 }

/-- R94 (decision D15; log entry 7): with the cursor at 13, 14 or 15 an advance edge is the fault `InvalidState(cur)`, never a
value, and a step leaves the condition only by reset. -/
def Obligations.ReservedCursorFaults : Prop :=
  ∀ s : State, 13 ≤ s.cur.toNat →
    (s.pins.rst = false → s.pins.advance = true → step s = .fault (.invalidState s.cur)) ∧
    (∀ t, step s = .next t → t.cur = s.cur ∨ (s.pins.rst = true ∧ t.cur = idGoW))

/-- R93, R94 (decision D15): no step is refused, and the only fault is `InvalidState` of a reserved cursor. That it comes only at an advance
edge is the model's: R94 speaks of a step, which the spec takes at such an edge, and that an idle edge is a step that holds a reserved
cursor without a fault is log entries 2 and 7. -/
def Obligations.OnlyReservedCursorStops : Prop :=
  ∀ s : State, (∀ r, step s ≠ .refused r) ∧
    (∀ f, step s = .fault f → f = .invalidState s.cur ∧ 13 ≤ s.cur.toNat ∧
      s.pins.rst = false ∧ s.pins.advance = true)

/-! Encodings. -/

/-- R11: `W(v) = v[0]`, `S(v) = v[1]`, `P(v) = v[2]`, `v = 4*P + 2*S + W`. -/
def Obligations.InputVectorBits : Prop :=
  ∀ v : InVec, inW v = v[0] ∧ inS v = v[1] ∧ inP v = v[2] ∧
    v.toNat = 4 * (inP v).toNat + 2 * (inS v).toNat + (inW v).toNat ∧
    v = inVecOf (inP v) (inS v) (inW v)

/-- The words of the examples of R58 to R61 and R65 to R73, and the words on both sides of the legal space (vectors X8, X9).
The identifiers are decision D5. -/
def Obligations.DecodeOfWrittenWords : Prop :=
  decode 0b0000010#7 = .instr (.goW 2) ∧ decode 0b0001101#7 = .instr (.waitW 5) ∧
  decode 0b0010001#7 = .instr (.goS 1) ∧ decode 0b0011011#7 = .instr (.waitS 3) ∧
  decode 0b0100111#7 = .instr (.walk 7) ∧ decode 0b0101000#7 = .instr (.c1 0) ∧
  decode 0b0110100#7 = .instr (.c2 4) ∧ decode 0b0111010#7 = .instr (.c3 2) ∧
  decode 0b1000110#7 = .instr (.c4 6) ∧ decode 0b1001001#7 = .instr (.c5 1) ∧
  decode 0b1010101#7 = .instr (.c6 5) ∧ decode 0b1011011#7 = .instr (.c7 3) ∧
  decode 0b1100001#7 = .instr (.dontWalk 1) ∧ decode 0b1100111#7 = .instr (.dontWalk 7) ∧
  decode 0b1101000#7 = .reservedState 13 ∧ decode 0b1111111#7 = .reservedState 15

/-- R42 to R45 (decisions D4, D5): decoding the word of any instruction, with any operand, gives the instruction back. -/
def Obligations.DecodeEncodeRoundTrip : Prop := ∀ i : Instr, decode (encode i) = .instr i

/-- R42 to R45 (decisions D4, D5): each legal word is the word of the instruction it decodes to. -/
def Obligations.EncodeDecodeRoundTrip : Prop := ∀ (dw : DecodeWord) (i : Instr), decode dw = .instr i → encode i = dw

/-- R51, R52 (decision D15): the legal words are `0x00` to `0x67`; the 24 words above are rejected, each naming its identifier. -/
def Obligations.LegalWordsAreTheFirst104 : Prop :=
  ∀ dw : DecodeWord,
    (dw.toNat ≤ 0x67 → ∃ i, decode dw = .instr i ∧ i.id = dw.extractLsb' 3 4 ∧ i.operand = dw.extractLsb' 0 3) ∧
    (0x68 ≤ dw.toNat → decode dw = .reservedState (dw.extractLsb' 3 4))

/-- The interface of log entry 6 (the model's choice): a table word placed at the fetch is the instruction the next step runs, from
any state. -/
def Obligations.PlacedWordRuns : Prop :=
  ∀ (s : State) (nbits w : Nat) (i : Instr), decodeTableWord nbits w = some i →
    step (s.withFetchWord nbits w) = exec i (s.withFetchWord nbits w).passEdge

/-- R47, R48 (decision D18): a row and its 56-bit word determine each other, and a packed successor is `row[4v+3:4v]`. -/
def Obligations.PackedRowRoundTrip : Prop :=
  (∀ r : Row, unpackRow r.pack = r) ∧ (∀ w : RowWord, (unpackRow w).pack = w) ∧
  (∀ (w : RowWord) (v : InVec), (unpackRow w).succ v = w.extractLsb' (4 * v.toNat) 4)

/-- The packed rows of `TABLE_REF` (`95_test_vectors.md` section 2; layout D18, contents D5, D8 to D14). -/
def Obligations.PackedRowsOfTableRef : Prop :=
  tableRef.toList.map Row.pack =
    [0x31012C01010101#56, 0x51006444442222#56, 0x85012C22332233#56, 0x89006444440000#56, 0x92012C55555555#56,
     0x90001966666666#56, 0x91001977777777#56, 0x90001988888888#56, 0x91001999999999#56, 0x900019AAAAAAAA#56,
     0x910019BBBBBBBB#56, 0x900019CCCCCCCC#56, 0x91006422022202#56]

/-! What each instruction does, and its frame: the cursor takes the successor, the iteration's accesses are appended, and every
other field is unchanged. -/

/-- R58 (decisions D8, D9, D10): `GO_W`, from every state, with every sample. -/
def Obligations.GoWRuns : Prop :=
  ∀ (v : InVec) (s : State), exec (.goW v) s =
    .next { s with
      cur := if inW v then idGoW else idWaitW,
      accesses := s.accesses ++ [.present 0b001100 0b01, .wait 300, .inRead v,
                                 .curWrite (if inW v then idGoW else idWaitW)] }

/-- R59 (decisions D8, D9, D11): `WAIT_W`. -/
def Obligations.WaitWRuns : Prop :=
  ∀ (v : InVec) (s : State), exec (.waitW v) s =
    .next { s with
      cur := if inP v then idWalk else idGoS,
      accesses := s.accesses ++ [.present 0b010100 0b01, .wait 100, .inRead v,
                                 .curWrite (if inP v then idWalk else idGoS)] }

/-- R60 (decisions D8, D9, D12): `GO_S`. -/
def Obligations.GoSRuns : Prop :=
  ∀ (v : InVec) (s : State), exec (.goS v) s =
    .next { s with
      cur := if inS v then idGoS else idWaitS,
      accesses := s.accesses ++ [.present 0b100001 0b01, .wait 300, .inRead v,
                                 .curWrite (if inS v then idGoS else idWaitS)] }

/-- R61 (decisions D8, D9, D13): `WAIT_S`. -/
def Obligations.WaitSRuns : Prop :=
  ∀ (v : InVec) (s : State), exec (.waitS v) s =
    .next { s with
      cur := if inP v then idWalk else idGoW,
      accesses := s.accesses ++ [.present 0b100010 0b01, .wait 100, .inRead v,
                                 .curWrite (if inP v then idWalk else idGoW)] }

/-- R65 (decisions D8, D9): `WALK`; the sample is taken and ignored. -/
def Obligations.WalkRuns : Prop :=
  ∀ (v : InVec) (s : State), exec (.walk v) s =
    .next { s with
      cur := idC1,
      accesses := s.accesses ++ [.present 0b100100 0b10, .wait 300, .inRead v, .curWrite idC1] }

/-- R66, R68, R70, R72 (decisions D8, D9): the dark countdown states `C1`, `C3`, `C5`, `C7`. -/
def Obligations.DarkCountdownRuns : Prop :=
  ∀ (v : InVec) (s : State),
    let dark : StateId → Result := fun n =>
      .next { s with cur := n,
                     accesses := s.accesses ++ [.present 0b100100 0b00, .wait 25, .inRead v, .curWrite n] }
    exec (.c1 v) s = dark idC2 ∧ exec (.c3 v) s = dark idC4 ∧ exec (.c5 v) s = dark idC6 ∧
    exec (.c7 v) s = dark idDontWalk

/-- R67, R69, R71 (decisions D8, D9): the lit countdown states `C2`, `C4`, `C6`. -/
def Obligations.LitCountdownRuns : Prop :=
  ∀ (v : InVec) (s : State),
    let lit : StateId → Result := fun n =>
      .next { s with cur := n,
                     accesses := s.accesses ++ [.present 0b100100 0b01, .wait 25, .inRead v, .curWrite n] }
    exec (.c2 v) s = lit idC3 ∧ exec (.c4 v) s = lit idC5 ∧ exec (.c6 v) s = lit idC7

/-- R73 (decisions D8, D9, D14): `DONT_WALK`. -/
def Obligations.DontWalkRuns : Prop :=
  ∀ (v : InVec) (s : State), exec (.dontWalk v) s =
    .next { s with
      cur := if inS v = false ∧ inW v = true then idGoW else idGoS,
      accesses := s.accesses ++ [.present 0b100100 0b01, .wait 100, .inRead v,
                                 .curWrite (if inS v = false ∧ inW v = true then idGoW else idGoS)] }

/-- R14, R75, R79: whatever the instruction, `exec` answers a next state whose cursor is the table's successor; the accesses are
those of the row's iteration; the pin levels to come and the edge count are unchanged. The table is `TABLE_REF` (log entry 1). -/
def Obligations.ExecFollowsItsRow : Prop :=
  ∀ (i : Instr) (s : State), ∃ r, tableRef.row? i.id = some r ∧
    exec i s = .next { s with
      cur := r.succ i.operand,
      accesses := s.accesses ++ [.present r.traffic r.walk, .wait r.hold, .inRead i.operand,
                                 .curWrite (r.succ i.operand)] }

/-! The drive loop and the three blocks. -/

/-- R75 in the form of R76 to R78: one iteration of the running machine is output, wait, sample, transition, in this order, on the row of
the cursor, with the sample that stands on the pins at the advance edge; nothing else of the block changes. The advance edge is decisions
D1 and D2 (log entry 2); the used-up levels and the counted edge are the model's own (log entries 3 and 4), and so is the record, with
both output writes as one event (log entry 5). -/
def Obligations.IterationProtocol : Prop :=
  ∀ (s : State) (r : Row), s.pins.rst = false → s.pins.advance = true → tableRef.row? s.cur = some r →
    step s = .next
      { cur := r.next[s.pins.inp.toNat],
        stimulus := s.stimulus.tail,
        edge := s.edge + 1,
        accesses := s.accesses ++ [.present r.traffic r.walk, .wait r.hold, .inRead s.pins.inp,
                                   .curWrite r.next[s.pins.inp.toNat]] }

/-- R79, the transition decoder's complete truth table, as the `next[7..0]` words of `95_test_vectors.md` section 2 (cells decided by
D10 to D14): what an advance edge loads into the cursor. -/
def Obligations.TransitionTruthTable : Prop :=
  ∀ s : State, s.cur.toNat < 13 → s.pins.rst = false → s.pins.advance = true →
    ∃ t w, step s = .next t ∧
      ([0x01010101#32, 0x44442222#32, 0x22332233#32, 0x44440000#32, 0x55555555#32, 0x66666666#32, 0x77777777#32,
        0x88888888#32, 0x99999999#32, 0xAAAAAAAA#32, 0xBBBBBBBB#32, 0xCCCCCCCC#32, 0x22022202#32])[s.cur.toNat]? = some w ∧
      t.cur = w.extractLsb' (4 * s.pins.inp.toNat) 4

/-- R80, the output multiplexer's table (patterns D9, holds D8); nothing for a reserved identifier (R94). -/
def Obligations.OutputTable : Prop :=
  ∀ c : StateId, tableRef.out? c =
    ([⟨0x0C#6, 1#2, 300#16⟩, ⟨0x14#6, 1#2, 100#16⟩, ⟨0x21#6, 1#2, 300#16⟩, ⟨0x22#6, 1#2, 100#16⟩,
      ⟨0x24#6, 2#2, 300#16⟩, ⟨0x24#6, 0#2, 25#16⟩, ⟨0x24#6, 1#2, 25#16⟩, ⟨0x24#6, 0#2, 25#16⟩, ⟨0x24#6, 1#2, 25#16⟩,
      ⟨0x24#6, 0#2, 25#16⟩, ⟨0x24#6, 1#2, 25#16⟩, ⟨0x24#6, 0#2, 25#16⟩, ⟨0x24#6, 1#2, 100#16⟩] : List Outputs)[c.toNat]?

/-- R80, R83: the outputs are a function of the cursor alone, so a step that loads the cursor with its own value leaves all three
ports as they are. -/
def Obligations.SelfLoopKeepsOutputs : Prop :=
  ∀ T : Table, (∀ s u : State, s.cur = u.cur → s.outputs T = u.outputs T) ∧
    (∀ s t : State, stepWith T s = .next t → t.cur = s.cur → t.outputs T = s.outputs T)

/-- R2, R8, R79: the machine that decodes `{cur, in}` and runs instructions is the table-driven machine at `TABLE := TABLE_REF`,
on every state, the reserved cursors included (log entries 2 and 7; log entry 1: `TABLE_REF` is the table the model fixes). -/
def Obligations.DecodedMachineIsTableDriven : Prop := ∀ s : State, step s = stepWith tableRef s

/-- R82, R17: the next cursor, or the fault, is a function of the cursor and of the pins at the edge. The access record, the edge
count and the levels to come are read by nothing. -/
def Obligations.StepReadsOnlyCursorAndPins : Prop :=
  ∀ s u : State, s.cur = u.cur → s.pins = u.pins →
    (∀ t, step s = .next t → ∃ t', step u = .next t' ∧ t'.cur = t.cur) ∧
    (∀ f, step s = .fault f → step u = .fault f)

/-- R26, R105: after a reset edge the block cannot tell what it did before: two machines reset at the same edge, whatever their
cursors and records were, go on alike under the same surroundings. -/
def Obligations.ResetForgetsThePast : Prop :=
  ∀ (n : Nat) (s u : State), s.pins.rst = true → s.stimulus = u.stimulus → s.edge = u.edge →
    ∃ t t', runSteps step (n + 1) s = .next t ∧ runSteps step (n + 1) u = .next t' ∧ t.cur = t'.cur

/-! The policies of the table. -/

/-- R62 and R63 (numbers of the states: decision D5): in `WALK` and `C1`..`C7` the sample is taken and discarded, and the successor is the
next state of the phase for all eight samples; the exit, at `DONT_WALK`, does depend on the input. That an iteration is four recorded
events is the model's choice (log entry 5). -/
def Obligations.CountdownIgnoresInput : Prop :=
  (∀ (i : Instr) (s : State), 4 ≤ i.id.toNat → i.id.toNat ≤ 11 →
    ∃ t p h n, exec i s = .next t ∧ t.cur.toNat = i.id.toNat + 1 ∧
      t.accesses = s.accesses ++ [p, h, .inRead i.operand, n]) ∧
  (∀ (c : StateId) (v v' : InVec), 4 ≤ c.toNat → c.toNat ≤ 11 → tableRef.succ? c v = tableRef.succ? c v') ∧
  (∃ v v' : InVec, tableRef.succ? idDontWalk v ≠ tableRef.succ? idDontWalk v')

/-- R57 (decisions D10 to D13): (a) a green state's successor does not depend on the pedestrian bit; (b) a yellow state goes to `WALK`
exactly when the pedestrian bit is 1, else to the other direction's green; (c) nothing else enters `WALK`. -/
def Obligations.PedestrianRequestPolicy : Prop :=
  (∀ (v : InVec), tableRef.succ? idGoW v = tableRef.succ? idGoW (v &&& 3) ∧
    tableRef.succ? idGoS v = tableRef.succ? idGoS (v &&& 3)) ∧
  (∀ (v : InVec) (s : State), ∃ t t', exec (.waitW v) s = .next t ∧ exec (.waitS v) s = .next t' ∧
    t.cur = (if v[2] then idWalk else idGoS) ∧ t'.cur = (if v[2] then idWalk else idGoW)) ∧
  (∀ (i : Instr) (s t : State), exec i s = .next t → t.cur = idWalk →
    ∃ v : InVec, v[2] = true ∧ (i = .waitW v ∨ i = .waitS v))

/-- R74: `DONT_WALK` at input 0 goes to `GO_S` from every state, whatever was served before. -/
def Obligations.TieBreakServesSouth : Prop :=
  ∀ s : State, ∃ t, exec (.dontWalk 0) s = .next t ∧ t.cur = idGoS

/-- R84, R85, R87: `TABLE_REF` satisfies `WF` and `PIN`; every row has exactly one lamp lit per direction; the successor of a yellow
shows that direction's red; `WALK` alone shows walk. (All patterns are D9; the identifiers of WF8 are log entry 9.) -/
def Obligations.TableRefIsWellFormed : Prop :=
  tableRef.WF ∧ tableRef.PIN ∧
  (∀ s : Fin 13, (tableRef[s]).traffic.extractLsb' 3 3 ∈ [1#3, 2#3, 4#3] ∧
    (tableRef[s]).traffic.extractLsb' 0 3 ∈ [1#3, 2#3, 4#3]) ∧
  (∀ s n : Fin 13, ∀ v : InVec, ((tableRef[s]).succ v).toNat = n.val →
    (cautionW (tableRef[s]).traffic → stopW (tableRef[n]).traffic) ∧
    (cautionS (tableRef[s]).traffic → stopS (tableRef[n]).traffic)) ∧
  (∀ s : Fin 13, walkOn (tableRef[s]).walk ↔ s.val = 4)

/-- R63, R116 (decision D8): the holds of the ring add up to 800 units and those from entering `WALK` to entering `DONT_WALK` to 475, of
which the countdown is 175. -/
def Obligations.HoldSums : Prop :=
  (((List.range 4).map (fun n => (tableRef.toList.map (fun r => r.hold.toNat)).getD n 0)).sum = 800) ∧
  (((List.range' 4 8).map (fun n => (tableRef.toList.map (fun r => r.hold.toNat)).getD n 0)).sum = 475) ∧
  (((List.range' 5 7).map (fun n => (tableRef.toList.map (fun r => r.hold.toNat)).getD n 0)).sum = 175)

/-! Invariants and runs, for every table that satisfies `WF`. -/

/-- R86 (a): from every state with a legal cursor, a step answers a next state with a legal cursor, under any closed table. -/
def Obligations.ClosedTableKeepsCursorLegal : Prop :=
  ∀ T : Table, T.Closed → ∀ s : State, s.Legal → ∃ t, stepWith T s = .next t ∧ t.Legal

/-- R13, R86 (a): the same of the machine with `TABLE_REF`: a legal cursor never faults and stays legal. -/
def Obligations.StepKeepsCursorLegal : Prop :=
  ∀ s : State, s.Legal → ∃ t, step s = .next t ∧ t.Legal

/-- The invariants hold at reset: the cursor is legal (R24), and the empty record (the model's choice, log
entry 5) is a trace under any table. -/
def Obligations.ResetIsLegalAndTraced : Prop := State.reset.Legal ∧ ∀ T : Table, State.reset.Traced T

/-- R38, R75, R81, R109: under any table, a step keeps the record a trace of the drive loop from reset that ends in the cursor: each
iteration presents the cursor's patterns, waits the row's hold, takes one sample and writes its successor, in this order, with no
overlap. (The record is the model's own, log entry 5.) -/
def Obligations.StepKeepsRecordATrace : Prop :=
  (∀ (T : Table) (s t : State), s.Traced T → stepWith T s = .next t → t.Traced T) ∧
  (∀ s t : State, s.Traced tableRef → step s = .next t → t.Traced tableRef)

/-- R86 (a), (b): under any table with `WF`, from any legal cursor, for any number of edges whatever the pins do (reset included), the
machine goes on, and the lamps it shows are safe: never both greens, no green with walk, never both walk lamps (the last is D7). -/
def Obligations.RunsStaySafe : Prop :=
  ∀ T : Table, T.WF → ∀ (s : State) (n : Nat), s.Legal →
    ∃ t o, runSteps (stepWith T) n s = .next t ∧ t.Legal ∧ t.outputs T = some o ∧ LampsSafe o

/-- R86 (c): under any table with `WF`, no step but a reset takes a direction from green to neither green nor yellow. -/
def Obligations.GreenEndsThroughYellow : Prop :=
  ∀ T : Table, T.WF → ∀ (s : State) (o : Outputs), s.pins.rst = false → s.outputs T = some o →
    ∃ t o', stepWith T s = .next t ∧ t.outputs T = some o' ∧
      (goW o.traffic → goW o'.traffic ∨ cautionW o'.traffic) ∧
      (goS o.traffic → goS o'.traffic ∨ cautionS o'.traffic)

/-- R62, R63, R86 (d), bounded clearance: under any table with `WF`, from `WALK`, after any edges without reset of which `k <= 8` are
advance edges, the cursor is `k` states further along `WALK, C1, ..., C7, DONT_WALK`, whatever the samples were. -/
def Obligations.BoundedClearance : Prop :=
  ∀ T : Table, T.WF → ∀ (s : State) (ps rest : List Pins), s.cur = idWalk → s.stimulus = ps ++ rest →
    (∀ p ∈ ps, p.rst = false) → ps.countP (fun p => p.advance) ≤ 8 →
    ∃ t, runSteps (stepWith T) ps.length s = .next t ∧ t.cur.toNat = 4 + ps.countP (fun p => p.advance)

/-- R56, R86 (e): the four cells of the ring in `TABLE_REF`; and the default cycle: from `GO_W`, with no sensor active at any of `n` samples,
the cursor goes round `GO_W, WAIT_W, GO_S, WAIT_S` and never enters the walk branch, in the running machine and under every table with
the pinned cells. A sample is taken at an advance edge (decision D2, log entry 2). -/
def Obligations.DefaultCycle : Prop :=
  (tableRef.succ? idGoW 0 = some idWaitW ∧ tableRef.succ? idWaitW 0 = some idGoS ∧
    tableRef.succ? idGoS 0 = some idWaitS ∧ tableRef.succ? idWaitS 0 = some idGoW) ∧
  (∀ (n : Nat) (s : State) (rest : List Pins), s.cur = idGoW →
    s.stimulus = List.replicate n ⟨false, true, 0⟩ ++ rest →
    (∃ t, runSteps step n s = .next t ∧ [idGoW, idWaitW, idGoS, idWaitS][n % 4]? = some t.cur) ∧
    (∀ T : Table, T.PIN →
      ∃ t, runSteps (stepWith T) n s = .next t ∧ [idGoW, idWaitW, idGoS, idWaitS][n % 4]? = some t.cur))

/-- R114: a direction that shows green keeps it, in `TABLE_REF`, for as long as its sensor is 1 at every sample; nobody else is
served. (The rule is the spec's; the cells of `TABLE_REF` it speaks of are its decisions D10 and D12, but for input 3 of `GO_W`.) -/
def Obligations.PresentTrafficKeepsGreen : Prop :=
  ∀ (ps rest : List Pins) (s : State), s.stimulus = ps ++ rest → (∀ p ∈ ps, p.rst = false) →
    (s.cur = idGoW → (∀ p ∈ ps, p.advance = true → inW p.inp = true) →
      ∃ t, runSteps step ps.length s = .next t ∧ t.cur = idGoW) ∧
    (s.cur = idGoS → (∀ p ∈ ps, p.advance = true → inS p.inp = true) →
      ∃ t, runSteps step ps.length s = .next t ∧ t.cur = idGoS)

/-- R78, R110 (decision D17): over any number of edges without reset and advance, whatever the sensors do, nothing of the block
changes and nothing is recorded. That such edges are steps that hold is decisions D1 and D2 with log entry 2 (the model's choice), and for
a reserved cursor log entry 7 (DEDUCED). -/
def Obligations.SensorEventsBetweenSamplesAreInvisible : Prop :=
  ∀ (ps rest : List Pins) (s : State), s.stimulus = ps ++ rest →
    (∀ p ∈ ps, p.rst = false ∧ p.advance = false) →
    runSteps step ps.length s =
      .next ({ s with stimulus := rest, edge := s.edge + ps.length } : State)

/-- R14, R77, R81, R111 (decision D2): the cursor makes exactly one table transition per advance edge, in order and with that edge's
sample, no more and no less, so that `advance` high for `n` edges makes `n` transitions; and the record shows as many cursor writes (the
record is the model's own, log entry 5; edges without `advance` are steps by log entry 2). -/
def Obligations.OneTransitionPerAdvance : Prop :=
  ∀ T : Table, T.Closed → ∀ (ps rest : List Pins) (s : State), s.Legal → s.stimulus = ps ++ rest →
    (∀ p ∈ ps, p.rst = false) →
    ∃ t, runSteps (stepWith T) ps.length s = .next t ∧
      (ps.filter (fun p => p.advance)).foldlM (fun c p => T.succ? c p.inp) s.cur = some t.cur ∧
      t.accesses.countP Access.isCurWrite = s.accesses.countP Access.isCurWrite + ps.countP (fun p => p.advance)

/-- R105, R108, R109 (decision D3): from any state, reserved cursors included, one or more reset edges lead to `GO_W`; then a hold of any
number of edges and one advance edge with sample `v` are an ordinary iteration in `GO_W`: its outputs, its full hold, the sample, the
transition, and nothing else after the reset. (Pattern and hold are D9 and D8, the cells of `GO_W` D10; the record is the model's own, log
entry 5, as are the levels and the edge count, log entries 3 and 4; the edges of the hold are steps by log entry 2.) -/
def Obligations.FirstIterationAfterReset : Prop :=
  ∀ (s : State) (q : Pins) (qs ps rest : List Pins) (v : InVec),
    s.stimulus = (q :: qs) ++ (ps ++ ⟨false, true, v⟩ :: rest) → (∀ p ∈ q :: qs, p.rst = true) →
    (∀ p ∈ ps, p.rst = false ∧ p.advance = false) →
    ∃ r : State, runSteps step (q :: qs).length s = .next r ∧ r.cur = idGoW ∧ r.accesses.getLast? = some .reset ∧
      runSteps step ((q :: qs).length + (ps.length + 1)) s = .next
        { cur := if inW v then idGoW else idWaitW,
          stimulus := rest,
          edge := s.edge + ((q :: qs).length + (ps.length + 1)),
          accesses := r.accesses ++ [.present 0b001100 0b01, .wait 300, .inRead v,
                                     .curWrite (if inW v then idGoW else idWaitW)] }

/-- R87: every state of `TABLE_REF` is reached from reset under some samples. (The table's decided cells are D10 to D14.) -/
def Obligations.EveryStateIsReachable : Prop :=
  ∀ c : StateId, c.toNat < 13 → ∃ (ps : List Pins) (t : State), (∀ p ∈ ps, p.rst = false) ∧
    runSteps step ps.length ({ State.reset with stimulus := ps } : State) = .next t ∧ t.cur = c
end

