-- ==== Sys2Proof/Laws/Decode.lean ====
section
/-! SUPPORT. The decode word and its fields, and the decoding of each row of the opcode table with a free operand. -/

namespace Sys2Proof

@[simp] theorem stateField_decodeWord (c : StateId) (v : InVec) : stateField (decodeWord c v) = c := by
  revert c v; decide

@[simp] theorem operandField_decodeWord (c : StateId) (v : InVec) : operandField (decodeWord c v) = v := by
  revert c v; decide

@[simp] theorem decodeWord_fields (dw : DecodeWord) : decodeWord (stateField dw) (operandField dw) = dw := by
  revert dw; decide

theorem decode_goW (v : InVec) : decode (decodeWord idGoW v) = .instr (.goW v) := by revert v; decide
theorem decode_waitW (v : InVec) : decode (decodeWord idWaitW v) = .instr (.waitW v) := by revert v; decide
theorem decode_goS (v : InVec) : decode (decodeWord idGoS v) = .instr (.goS v) := by revert v; decide
theorem decode_waitS (v : InVec) : decode (decodeWord idWaitS v) = .instr (.waitS v) := by revert v; decide
theorem decode_walk (v : InVec) : decode (decodeWord idWalk v) = .instr (.walk v) := by revert v; decide
theorem decode_c1 (v : InVec) : decode (decodeWord idC1 v) = .instr (.c1 v) := by revert v; decide
theorem decode_c2 (v : InVec) : decode (decodeWord idC2 v) = .instr (.c2 v) := by revert v; decide
theorem decode_c3 (v : InVec) : decode (decodeWord idC3 v) = .instr (.c3 v) := by revert v; decide
theorem decode_c4 (v : InVec) : decode (decodeWord idC4 v) = .instr (.c4 v) := by revert v; decide
theorem decode_c5 (v : InVec) : decode (decodeWord idC5 v) = .instr (.c5 v) := by revert v; decide
theorem decode_c6 (v : InVec) : decode (decodeWord idC6 v) = .instr (.c6 v) := by revert v; decide
theorem decode_c7 (v : InVec) : decode (decodeWord idC7 v) = .instr (.c7 v) := by revert v; decide
theorem decode_dontWalk (v : InVec) : decode (decodeWord idDontWalk v) = .instr (.dontWalk v) := by revert v; decide

/-- A reserved identifier is rejected by name, whatever the operand (R51). -/
theorem decode_reserved {c : StateId} (h : 13 ≤ c.toNat) (v : InVec) :
    decode (decodeWord c v) = .reservedState c := by
  revert c v; decide

/-- No word belongs to two rows of the opcode table. -/
theorem opcodeTable_disjoint :
    opcodeTable.Pairwise (fun a b => ∀ dw : DecodeWord, ¬ (dw &&& a.mask = a.pattern ∧ dw &&& b.mask = b.pattern)) := by
  decide

end Sys2Proof
end

