-- ==== Sys2Proof/Laws/State.lean ====
section
/-! SUPPORT. One lemma per field and update of the state, so that no later proof unfolds an update. -/

namespace Sys2Proof.Machine

@[simp] theorem record_cur (s : State) (a : Access) : (s.record a).cur = s.cur := rfl
@[simp] theorem record_stimulus (s : State) (a : Access) : (s.record a).stimulus = s.stimulus := rfl
@[simp] theorem record_edge (s : State) (a : Access) : (s.record a).edge = s.edge := rfl
@[simp] theorem record_accesses (s : State) (a : Access) : (s.record a).accesses = s.accesses ++ [a] := rfl

@[simp] theorem outputPhase_cur (s : State) (r : Row) : (s.outputPhase r).cur = s.cur := rfl
@[simp] theorem outputPhase_stimulus (s : State) (r : Row) : (s.outputPhase r).stimulus = s.stimulus := rfl
@[simp] theorem outputPhase_edge (s : State) (r : Row) : (s.outputPhase r).edge = s.edge := rfl
@[simp] theorem outputPhase_accesses (s : State) (r : Row) :
    (s.outputPhase r).accesses = s.accesses ++ [.present r.traffic r.walk] := rfl

@[simp] theorem waitPhase_cur (s : State) (r : Row) : (s.waitPhase r).cur = s.cur := rfl
@[simp] theorem waitPhase_stimulus (s : State) (r : Row) : (s.waitPhase r).stimulus = s.stimulus := rfl
@[simp] theorem waitPhase_edge (s : State) (r : Row) : (s.waitPhase r).edge = s.edge := rfl
@[simp] theorem waitPhase_accesses (s : State) (r : Row) :
    (s.waitPhase r).accesses = s.accesses ++ [.wait r.hold] := rfl

@[simp] theorem inputPhase_cur (s : State) (v : InVec) : (s.inputPhase v).cur = s.cur := rfl
@[simp] theorem inputPhase_stimulus (s : State) (v : InVec) : (s.inputPhase v).stimulus = s.stimulus := rfl
@[simp] theorem inputPhase_edge (s : State) (v : InVec) : (s.inputPhase v).edge = s.edge := rfl
@[simp] theorem inputPhase_accesses (s : State) (v : InVec) :
    (s.inputPhase v).accesses = s.accesses ++ [.inRead v] := rfl

@[simp] theorem transitionPhase_cur (s : State) (n : StateId) : (s.transitionPhase n).cur = n := rfl
@[simp] theorem transitionPhase_stimulus (s : State) (n : StateId) : (s.transitionPhase n).stimulus = s.stimulus := rfl
@[simp] theorem transitionPhase_edge (s : State) (n : StateId) : (s.transitionPhase n).edge = s.edge := rfl
@[simp] theorem transitionPhase_accesses (s : State) (n : StateId) :
    (s.transitionPhase n).accesses = s.accesses ++ [.curWrite n] := rfl

@[simp] theorem iterate_cur (s : State) (r : Row) (v : InVec) : (s.iterate r v).cur = r.succ v := rfl
@[simp] theorem iterate_stimulus (s : State) (r : Row) (v : InVec) : (s.iterate r v).stimulus = s.stimulus := rfl
@[simp] theorem iterate_edge (s : State) (r : Row) (v : InVec) : (s.iterate r v).edge = s.edge := rfl
@[simp] theorem iterate_accesses (s : State) (r : Row) (v : InVec) :
    (s.iterate r v).accesses =
      s.accesses ++ [.present r.traffic r.walk, .wait r.hold, .inRead v, .curWrite (r.succ v)] := by
  simp [State.iterate]

@[simp] theorem passEdge_cur (s : State) : s.passEdge.cur = s.cur := rfl
@[simp] theorem passEdge_stimulus (s : State) : s.passEdge.stimulus = s.stimulus.tail := rfl
@[simp] theorem passEdge_edge (s : State) : s.passEdge.edge = s.edge + 1 := rfl
@[simp] theorem passEdge_accesses (s : State) : s.passEdge.accesses = s.accesses := rfl

@[simp] theorem abandon_cur (T : Table) (s : State) : (s.abandon T).cur = s.cur := by
  unfold State.abandon; split <;> rfl
@[simp] theorem abandon_stimulus (T : Table) (s : State) : (s.abandon T).stimulus = s.stimulus := by
  unfold State.abandon; split <;> rfl
@[simp] theorem abandon_edge (T : Table) (s : State) : (s.abandon T).edge = s.edge := by
  unfold State.abandon; split <;> rfl
theorem abandon_of_row {T : Table} {s : State} {r : Row} (h : T.row? s.cur = some r) :
    s.abandon T = s.outputPhase r := by simp [State.abandon, h]
theorem abandon_of_no_row {T : Table} {s : State} (h : T.row? s.cur = none) : s.abandon T = s := by
  simp [State.abandon, h]

@[simp] theorem takeReset_cur (T : Table) (s : State) : (s.takeReset T).cur = sInit := rfl
@[simp] theorem takeReset_stimulus (T : Table) (s : State) : (s.takeReset T).stimulus = s.stimulus := by
  simp [State.takeReset]
@[simp] theorem takeReset_edge (T : Table) (s : State) : (s.takeReset T).edge = s.edge := by
  simp [State.takeReset]
@[simp] theorem takeReset_accesses (T : Table) (s : State) :
    (s.takeReset T).accesses = (s.abandon T).accesses ++ [.reset] := by
  simp [State.takeReset]

theorem pins_of_cons {s : State} {p : Pins} {ps : List Pins} (h : s.stimulus = p :: ps) : s.pins = p := by
  simp [State.pins, h]

@[simp] theorem placeWord_pins (s : State) (w : Nat) :
    (s.placeWord w).pins = ⟨false, true, operandField (BitVec.ofNat 7 w)⟩ := rfl
@[simp] theorem placeWord_cur (s : State) (w : Nat) : (s.placeWord w).cur = stateField (BitVec.ofNat 7 w) := rfl
@[simp] theorem placeWord_edge (s : State) (w : Nat) : (s.placeWord w).edge = s.edge := rfl
@[simp] theorem placeWord_accesses (s : State) (w : Nat) : (s.placeWord w).accesses = s.accesses := rfl

end Sys2Proof.Machine
end

