-- ==== Sys2Proof/Laws/Table.lean ====
section
/-! SUPPORT. Rows of a table, and the successors of each row of `TABLE_REF` as the pseudocode of its rule writes them. -/

namespace Sys2Proof

theorem row?_of_lt (T : Table) {s : StateId} (h : s.toNat < 13) : T.row? s = some (T[s.toNat]) := by
  simp [Table.row?, h]

/-- The same with the index that the clauses of `WF` speak of. -/
theorem row?_fin (T : Table) {s : StateId} (h : s.toNat < 13) : T.row? s = some (T[(⟨s.toNat, h⟩ : Fin 13)]) :=
  row?_of_lt T h

theorem row?_of_ge (T : Table) {s : StateId} (h : 13 ≤ s.toNat) : T.row? s = none := by
  simp [Table.row?, h]

theorem row?_isSome_iff (T : Table) (s : StateId) : (T.row? s).isSome ↔ s.toNat < 13 := by
  by_cases h : s.toNat < 13
  · simp [row?_of_lt T h, h]
  · simp [row?_of_ge T (Nat.le_of_not_lt h), h]

/-- The row of a state, with the index that the clauses of `WF` speak of. -/
theorem row?_eq_some {T : Table} {s : StateId} {r : Row} (h : T.row? s = some r) :
    ∃ n : Fin 13, s.toNat = n.val ∧ r = T[n] := by
  have hs : s.toNat < 13 := (row?_isSome_iff T s).mp (by simp [h])
  rw [row?_of_lt T hs] at h
  exact ⟨⟨s.toNat, hs⟩, rfl, (Option.some.inj h).symm⟩

theorem rowGoW_succ (v : InVec) : rowGoW.succ v = if inW v then idGoW else idWaitW := by revert v; decide
theorem rowWaitW_succ (v : InVec) : rowWaitW.succ v = if inP v then idWalk else idGoS := by revert v; decide
theorem rowGoS_succ (v : InVec) : rowGoS.succ v = if inS v then idGoS else idWaitS := by revert v; decide
theorem rowWaitS_succ (v : InVec) : rowWaitS.succ v = if inP v then idWalk else idGoW := by revert v; decide
theorem rowWalk_succ (v : InVec) : rowWalk.succ v = idC1 := by revert v; decide
theorem rowC1_succ (v : InVec) : rowC1.succ v = idC2 := by revert v; decide
theorem rowC2_succ (v : InVec) : rowC2.succ v = idC3 := by revert v; decide
theorem rowC3_succ (v : InVec) : rowC3.succ v = idC4 := by revert v; decide
theorem rowC4_succ (v : InVec) : rowC4.succ v = idC5 := by revert v; decide
theorem rowC5_succ (v : InVec) : rowC5.succ v = idC6 := by revert v; decide
theorem rowC6_succ (v : InVec) : rowC6.succ v = idC7 := by revert v; decide
theorem rowC7_succ (v : InVec) : rowC7.succ v = idDontWalk := by revert v; decide
theorem rowDontWalk_succ (v : InVec) :
    rowDontWalk.succ v = if !inS v && inW v then idGoW else idGoS := by revert v; decide

end Sys2Proof
end

