-- ==== Sys2Proof/Laws/Ops.lean ====
section
/-! SUPPORT. One lemma per shared operation that says everything it can do; the provers cite these instead of unfolding. -/

namespace Sys2Proof.Machine

/-- The four phases of an iteration, as one update. -/
theorem iterate_eq (s : State) (r : Row) (v : InVec) :
    s.iterate r v =
      { s with cur := r.succ v,
               accesses := s.accesses ++ [.present r.traffic r.walk, .wait r.hold, .inRead v, .curWrite (r.succ v)] } := by
  simp [State.iterate, State.transitionPhase, State.inputPhase, State.waitPhase, State.outputPhase, State.record]

/-- Reset, where the cursor names a row. -/
theorem takeReset_of_row {T : Table} {s : State} {r : Row} (h : T.row? s.cur = some r) :
    s.takeReset T = { s with cur := sInit, accesses := s.accesses ++ [.present r.traffic r.walk, .reset] } := by
  simp [State.takeReset, abandon_of_row h, State.outputPhase, State.record]

/-- Reset, where the cursor names no row. -/
theorem takeReset_of_no_row {T : Table} {s : State} (h : T.row? s.cur = none) :
    s.takeReset T = { s with cur := sInit, accesses := s.accesses ++ [.reset] } := by
  simp [State.takeReset, abandon_of_no_row h, State.record]

/-- The three things a rising edge can do. -/
theorem risingEdge_next {T : Table} {f : State → Result} {s t : State} (h : risingEdge T f s = .next t) :
    (s.pins.rst = true ∧ t = s.passEdge.takeReset T) ∨
    (s.pins.rst = false ∧ s.pins.advance = true ∧ f s.passEdge = .next t) ∨
    (s.pins.rst = false ∧ s.pins.advance = false ∧ t = s.passEdge) := by
  unfold risingEdge at h
  split at h
  · rename_i hr; exact .inl ⟨hr, (Host.Outcome.next.inj h).symm⟩
  · rename_i hr
    split at h
    · rename_i ha; exact .inr (.inl ⟨by simpa using hr, ha, h⟩)
    · rename_i ha; exact .inr (.inr ⟨by simpa using hr, by simpa using ha, (Host.Outcome.next.inj h).symm⟩)

theorem risingEdge_rst {T : Table} {f : State → Result} {s : State} (h : s.pins.rst = true) :
    risingEdge T f s = .next (s.passEdge.takeReset T) := by simp [risingEdge, h]

theorem risingEdge_advance {T : Table} {f : State → Result} {s : State} (hr : s.pins.rst = false)
    (ha : s.pins.advance = true) : risingEdge T f s = f s.passEdge := by simp [risingEdge, hr, ha]

theorem risingEdge_idle {T : Table} {f : State → Result} {s : State} (hr : s.pins.rst = false)
    (ha : s.pins.advance = false) : risingEdge T f s = .next s.passEdge := by simp [risingEdge, hr, ha]

/-- The transition of the machine with table `T`, where the cursor names a row. -/
theorem runRow_of_row {T : Table} {v : InVec} {s : State} {r : Row} (h : T.row? s.cur = some r) :
    runRow T v s = .next (s.iterate r v) := by simp [runRow, h, iteration]

theorem runRow_of_no_row {T : Table} {v : InVec} {s : State} (h : T.row? s.cur = none) :
    runRow T v s = .fault (.invalidState s.cur) := by simp [runRow, h]

theorem runRow_next {T : Table} {v : InVec} {s t : State} (h : runRow T v s = .next t) :
    ∃ r, T.row? s.cur = some r ∧ t = s.iterate r v := by
  unfold runRow at h
  split at h
  · rename_i r hr; exact ⟨r, hr, (Host.Outcome.next.inj h).symm⟩
  · cases h

/-- What one step of the machine with table `T` can do, where it answers a next state. -/
theorem stepWith_next {T : Table} {s t : State} (h : stepWith T s = .next t) :
    (s.pins.rst = true ∧ t = s.passEdge.takeReset T) ∨
    (s.pins.rst = false ∧ s.pins.advance = true ∧
      ∃ r, T.row? s.cur = some r ∧ t = s.passEdge.iterate r s.pins.inp) ∨
    (s.pins.rst = false ∧ s.pins.advance = false ∧ t = s.passEdge) := by
  obtain h | ⟨hr, ha, h⟩ | h := risingEdge_next h
  · exact .inl h
  · exact .inr (.inl ⟨hr, ha, runRow_next h⟩)
  · exact .inr (.inr h)

theorem stepWith_rst {T : Table} {s : State} (h : s.pins.rst = true) :
    stepWith T s = .next (s.passEdge.takeReset T) := risingEdge_rst h

theorem stepWith_idle {T : Table} {s : State} (hr : s.pins.rst = false) (ha : s.pins.advance = false) :
    stepWith T s = .next s.passEdge := risingEdge_idle hr ha

theorem stepWith_of_row {T : Table} {s : State} {r : Row} (hr : s.pins.rst = false) (ha : s.pins.advance = true)
    (h : T.row? s.cur = some r) : stepWith T s = .next (s.passEdge.iterate r s.pins.inp) := by
  rw [stepWith, risingEdge_advance hr ha]; exact runRow_of_row h

theorem stepWith_of_no_row {T : Table} {s : State} (hr : s.pins.rst = false) (ha : s.pins.advance = true)
    (h : T.row? s.cur = none) : stepWith T s = .fault (.invalidState s.cur) := by
  rw [stepWith, risingEdge_advance hr ha]; exact runRow_of_no_row h

/-- What the transition of a decoded word can do. -/
theorem runWord_of_instr {dw : DecodeWord} {i : Instr} (h : decode dw = .instr i) (s : State) :
    runWord dw s = exec i s := by simp [runWord, h]

theorem runWord_of_reserved {dw : DecodeWord} {c : StateId} (h : decode dw = .reservedState c) (s : State) :
    runWord dw s = .fault (.invalidState c) := by simp [runWord, h]

/-! Runs. -/

@[simp] theorem runSteps_zero (f : State → Result) (s : State) : runSteps f 0 s = .next s := rfl

/-- A run takes its first step, then the rest. -/
theorem runSteps_succ {f : State → Result} {s t : State} (h : f s = .next t) (n : Nat) :
    runSteps f (n + 1) s = runSteps f n t := by simp only [runSteps, h]

/-- Runs compose. -/
theorem runSteps_add {f : State → Result} {m : Nat} {s t : State} (h : runSteps f m s = .next t) (n : Nat) :
    runSteps f (m + n) s = runSteps f n t := by
  induction m generalizing s with
  | zero => cases h; rw [Nat.zero_add]
  | succ m ih =>
    rw [Nat.succ_add]
    simp only [runSteps] at h ⊢
    split at h
    · exact ih h
    · cases h
    · cases h

/-- An invariant that every step keeps, and under which every step answers a next state, holds along every run. -/
theorem runSteps_of_invariant {f : State → Result} {Inv : State → Prop}
    (keep : ∀ s, Inv s → ∃ t, f s = .next t ∧ Inv t) (n : Nat) (s : State) (h : Inv s) :
    ∃ t, runSteps f n s = .next t ∧ Inv t := by
  induction n generalizing s with
  | zero => exact ⟨s, rfl, h⟩
  | succ n ih =>
    obtain ⟨u, hu, hi⟩ := keep s h
    obtain ⟨t, ht, hj⟩ := ih u hi
    exact ⟨t, (runSteps_succ hu n).trans ht, hj⟩

/-- The host's runs of the machine are these runs. -/
theorem core_run_eq (n : Nat) (s : State) : Sys2Proof.core.run n s = runSteps step n s := by
  induction n generalizing s with
  | zero => rfl
  | succ n ih =>
    have e : Sys2Proof.core.step s = step s := rfl
    simp only [Host.Core.run, runSteps]
    cases h : step s with
    | next t => rw [e.trans h]; exact ih t
    | fault r => rw [e.trans h]; rfl
    | refused r => rw [e.trans h]; rfl

end Sys2Proof.Machine
end

