-- ==== Sys2Proof/Laws/PerInstr.lean ====
section
/-! SUPPORT. The family Encoding, per instruction: the instruction is well formed, its word is legal (at most `0x67`, R52), and the
word's two fields are its identifier and its operand (R43). -/

namespace Sys2Proof.Laws.Encoding

def Statement (i : Instr) : Prop :=
  i.wf = true ∧ (encode i).toNat ≤ 0x67 ∧ stateField (encode i) = i.id ∧ operandField (encode i) = i.operand

theorem word_le {c : StateId} (h : c.toNat < 13) (v : InVec) : (decodeWord c v).toNat ≤ 0x67 := by
  revert c v; decide

theorem of_id {i : Instr} {c : StateId} (hi : i.id = c) (h : c.toNat < 13) : Statement i :=
  ⟨by simp [Instr.wf, Config.nStates, hi, h], by rw [encode, hi]; exact word_le h _,
    stateField_decodeWord _ _, operandField_decodeWord _ _⟩

theorem goW (v : InVec) : Statement (.goW v) := of_id (c := idGoW) rfl (by decide)
theorem waitW (v : InVec) : Statement (.waitW v) := of_id (c := idWaitW) rfl (by decide)
theorem goS (v : InVec) : Statement (.goS v) := of_id (c := idGoS) rfl (by decide)
theorem waitS (v : InVec) : Statement (.waitS v) := of_id (c := idWaitS) rfl (by decide)
theorem walk (v : InVec) : Statement (.walk v) := of_id (c := idWalk) rfl (by decide)
theorem c1 (v : InVec) : Statement (.c1 v) := of_id (c := idC1) rfl (by decide)
theorem c2 (v : InVec) : Statement (.c2 v) := of_id (c := idC2) rfl (by decide)
theorem c3 (v : InVec) : Statement (.c3 v) := of_id (c := idC3) rfl (by decide)
theorem c4 (v : InVec) : Statement (.c4 v) := of_id (c := idC4) rfl (by decide)
theorem c5 (v : InVec) : Statement (.c5 v) := of_id (c := idC5) rfl (by decide)
theorem c6 (v : InVec) : Statement (.c6 v) := of_id (c := idC6) rfl (by decide)
theorem c7 (v : InVec) : Statement (.c7 v) := of_id (c := idC7) rfl (by decide)
theorem dontWalk (v : InVec) : Statement (.dontWalk v) := of_id (c := idDontWalk) rfl (by decide)

end Sys2Proof.Laws.Encoding
end

