-- ==== Sys2Proof/Machine/Text.lean ====
section
/-! DEFINITION. The text syntax the spec writes tables and traces in (`30_encoding.md` R53, decision D19), and the source's informal
names of states (R54). It writes; nothing of the machine reads it. -/

namespace Sys2Proof

/-- The mnemonic of a state, or its decimal identifier where it names no row (R45, R53). -/
def stateText (s : StateId) : String :=
  match opRow? (decodeWord s 0) with
  | some r => r.mnemonic
  | none   => Nat.repr s.toNat

/-- A `0b` literal, most significant bit first (R9). -/
def bitsText (w : Nat) (x : BitVec w) : String :=
  "0b" ++ String.join ((List.range w).reverse.map (fun i => if x.getLsbD i then "1" else "0"))

/-- `<MNEMONIC>: traffic=<0b6>, walk=<0b2>, hold=<decimal>, next=[n0,…,n7]` (R53). -/
def rowText (s : StateId) (r : Row) : String :=
  stateText s ++ ": traffic=" ++ bitsText 6 r.traffic ++ ", walk=" ++ bitsText 2 r.walk ++
    ", hold=" ++ Nat.repr r.hold.toNat ++ ", next=[" ++ String.intercalate "," (r.next.toList.map stateText) ++ "]"

/-- The traces an access record shows, each in R53's form `S0 -v0-> S1 -v1-> S2 ...`; `line` is what is written of the first.
DESIGN CHOICE (log entry 14): R53's form has no place for a reset, so a reset ends one trace where it stands and begins the next at
`S_INIT`, and the state that the reset abandons is never the source of an arrow. -/
def traceLines (line : String) : List Machine.Access → List String
  | .inRead v :: .curWrite n :: rest =>
    traceLines (line ++ " -" ++ Nat.repr v.toNat ++ "-> " ++ stateText n) rest
  | .reset :: rest => line :: traceLines (stateText sInit) rest
  | _ :: rest => traceLines line rest
  | [] => [line]

/-- The traces of an access record that begins in cursor `s`, one for each stretch without reset (R53; log entry 14). -/
def traceText (s : StateId) (record : List Machine.Access) : List String := traceLines (stateText s) record

/-- The source's informal names of states, as aliases only (R54). -/
def informalNames : List (String × List StateId) :=
  [ ("go west", [idGoW]), ("west-green", [idGoW]), ("west-yellow", [idWaitW]), ("south-green", [idGoS]),
    ("south-yellow", [idWaitS]), ("walk phase", [idWalk]),
    ("clearance sequence", [idC1, idC2, idC3, idC4, idC5, idC6, idC7]),
    ("terminal \"don't walk\" state", [idDontWalk]), ("final don't-walk state", [idDontWalk]),
    ("boundary state", [idWaitW, idWaitS]) ]

/-- The states an informal name stands for; none for any other text ("walk phase" begins at the state given) (R54). -/
def statesNamed (name : String) : List StateId :=
  ((informalNames.find? (fun p => p.1 == name)).map (·.2)).getD []

end Sys2Proof
end

