-- ==== Sys2Proof/Tests/Slice0.lean ====
section
/-! SUPPORT. The model's own tests. Expected values are the spec's: examples of R58 to R73, vectors of `95_test_vectors.md`, the table of R27,
the example of R53. The witnesses show that the hypotheses of a statement can be met. -/

namespace Sys2Proof.Machine.Tests

/-- A state of the block with cursor `c`, at edge 0, with announced pin levels and an empty record. -/
def mk (c : StateId) (ps : List Pins) : State := ⟨c, ps, 0, []⟩
/-- An edge that ends an iteration with sample `v`. -/
def adv (v : InVec) : Pins := ⟨false, true, v⟩
/-- An edge within a hold. -/
def idle (v : InVec) : Pins := ⟨false, false, v⟩
/-- An edge with reset. -/
def rst (a : Bool) (v : InVec) : Pins := ⟨true, a, v⟩

def nextState : Result → Option State
  | .next t => some t
  | .fault _ => none
  | .refused _ => none

def faultOf : Result → Option Fault
  | .next _ => none
  | .fault f => some f
  | .refused _ => none

/-- The cursor after one step. -/
def cursorAfter (s : State) : Option StateId := (nextState (step s)).map (·.cur)

/-! Decoding, one word or more per state, written bit by bit from R58 to R61 and R65 to R73. -/

theorem test_decode_goW : decode 0b0000010#7 = .instr (.goW 2) := by decide
theorem test_decode_waitW : decode 0b0001101#7 = .instr (.waitW 5) := by decide
theorem test_decode_goS : decode 0b0010001#7 = .instr (.goS 1) := by decide
theorem test_decode_waitS : decode 0b0011011#7 = .instr (.waitS 3) := by decide
theorem test_decode_walk : decode 0b0100111#7 = .instr (.walk 7) := by decide
theorem test_decode_c1 : decode 0b0101000#7 = .instr (.c1 0) := by decide
theorem test_decode_c2 : decode 0b0110100#7 = .instr (.c2 4) := by decide
theorem test_decode_c3 : decode 0b0111010#7 = .instr (.c3 2) := by decide
theorem test_decode_c4 : decode 0b1000110#7 = .instr (.c4 6) := by decide
theorem test_decode_c5 : decode 0b1001001#7 = .instr (.c5 1) := by decide
theorem test_decode_c6 : decode 0b1010101#7 = .instr (.c6 5) := by decide
theorem test_decode_c7 : decode 0b1011011#7 = .instr (.c7 3) := by decide
theorem test_decode_dontWalk : decode 0b1100001#7 = .instr (.dontWalk 1) := by decide
/-- X9, the last legal word, beside X8, the first illegal one, and the last word of all. -/
theorem test_decode_edge : decode 0x67#7 = .instr (.dontWalk 7) ∧ decode 0x68#7 = .reservedState 13 ∧
    decode 0x70#7 = .reservedState 14 ∧ decode 0x7F#7 = .reservedState 15 := by decide
theorem test_decodeTableWord : decodeTableWord 8 0x5B = some (.c7 3) ∧ decodeTableWord 8 0x78 = none := by decide
/-- E11: pedestrian requesting, no south vehicle, west vehicle present gives 5. -/
theorem test_input_vector : inVecOf true false true = 5 := by decide

/-! One step per state (the examples of the rules; V0.7, V2.6, V12.0 the cells most easily misread). -/

theorem test_step_goW : cursorAfter (mk idGoW [adv 2]) = some idWaitW ∧ cursorAfter (mk idGoW [adv 7]) = some idGoW := by decide
theorem test_step_waitW : cursorAfter (mk idWaitW [adv 5]) = some idWalk ∧ cursorAfter (mk idWaitW [adv 3]) = some idGoS := by decide
theorem test_step_goS : cursorAfter (mk idGoS [adv 1]) = some idWaitS ∧ cursorAfter (mk idGoS [adv 6]) = some idGoS := by decide
theorem test_step_waitS : cursorAfter (mk idWaitS [adv 3]) = some idGoW ∧ cursorAfter (mk idWaitS [adv 4]) = some idWalk := by decide
theorem test_step_walk : cursorAfter (mk idWalk [adv 7]) = some idC1 := by decide
theorem test_step_c1 : cursorAfter (mk idC1 [adv 0]) = some idC2 := by decide
theorem test_step_c2 : cursorAfter (mk idC2 [adv 4]) = some idC3 := by decide
theorem test_step_c3 : cursorAfter (mk idC3 [adv 2]) = some idC4 := by decide
theorem test_step_c4 : cursorAfter (mk idC4 [adv 6]) = some idC5 := by decide
theorem test_step_c5 : cursorAfter (mk idC5 [adv 1]) = some idC6 := by decide
theorem test_step_c6 : cursorAfter (mk idC6 [adv 5]) = some idC7 := by decide
theorem test_step_c7 : cursorAfter (mk idC7 [adv 3]) = some idDontWalk := by decide
theorem test_step_dontWalk : cursorAfter (mk idDontWalk [adv 1]) = some idGoW ∧ cursorAfter (mk idDontWalk [adv 0]) = some idGoS := by decide

/-- R75 with the row of R59: the accesses of one iteration, in order. -/
theorem test_accesses_of_an_iteration : (nextState (step (mk idWaitW [adv 4]))).map (·.accesses) =
    some [.present 0x14 1, .wait 100, .inRead 4, .curWrite 4] := by decide

/-! The vectors of section 5. -/

theorem test_X1_idle : cursorAfter (mk 0b0110 [idle 7]) = some 0b0110 := by decide
theorem test_X2_outputs : (nextState (step (mk 0b0001 [adv 4]))).bind (·.outputs tableRef) = some ⟨0b100100, 0b10, 300⟩ := by decide
theorem test_X3_reset_wins : cursorAfter (mk 0b0001 [rst true 4]) = some 0b0000 := by decide
theorem test_X4_reset_outputs : (nextState (step (mk 0b1011 [rst false 0]))).bind (·.outputs tableRef) = some ⟨0b001100, 0b01, 300⟩ := by decide
theorem test_X6_reserved_faults : faultOf (step (mk 0b1101 [adv 0])) = some (.invalidState 13) := by decide
theorem test_X7_reset_leaves_reserved : cursorAfter (mk 0b1111 [rst false 0]) = some 0b0000 := by decide
/-- R27. -/
theorem test_reset_outputs : State.reset.outputs tableRef = some ⟨0b001100, 0b01, 300⟩ := by decide
/-- A placed word is the first thing that runs after reset. -/
theorem test_withFetchWord : cursorAfter (State.reset.withFetchWord 8 0x66) = some idGoS := by decide
/-- Section 2, rows 0 and 12. -/
theorem test_packed : rowGoW.pack = 0x31012C01010101 ∧ unpackRow 0x91006422022202 = rowDontWalk := by decide
/-- The example of R53, and a trace. -/
theorem test_row_text : rowText idGoW rowGoW =
    "GO_W: traffic=0b001100, walk=0b01, hold=300, next=[WAIT_W,GO_W,WAIT_W,GO_W,WAIT_W,GO_W,WAIT_W,GO_W]" := by decide
theorem test_trace_text : traceText idGoW [.present 0x0C 1, .wait 300, .inRead 4, .curWrite idWaitW] = ["GO_W -4-> WAIT_W"] := by decide
/-- P7: the trace up to the reset, and the first iteration after it (how a reset is shown is log entry 14). -/
theorem test_trace_text_reset : traceText idC1 [.present 0x24 0, .wait 25, .inRead 4, .curWrite idC2, .present 0x24 1, .reset,
    .present 0x0C 1, .wait 300, .inRead 0, .curWrite idWaitW] = ["C1 -4-> C2", "GO_W -0-> WAIT_W"] := by decide
/-- R54. -/
theorem test_informal : statesNamed "boundary state" = [idWaitW, idWaitS] ∧ statesNamed "north" = [] := by decide

/-! Well-formedness: for each clause a table that breaks it, which the check refuses. (WF1 and WF3 hold by type.) -/

theorem test_wf2_refuses : ¬ Table.Closed (tableRef.set 12 { rowDontWalk with next := rowDontWalk.next.set 7 13 }) := by decide
theorem test_wf4_refuses : ¬ Table.HoldsPositive (tableRef.set 5 { rowC1 with hold := 0 }) := by decide
theorem test_wf5_refuses : ¬ Table.MutualExclusion (tableRef.set 0 { rowGoW with traffic := 0b001001 }) := by decide
theorem test_wf6_refuses : ¬ Table.PedestrianExclusivity (tableRef.set 4 { rowWalk with traffic := 0b001100 }) := by decide
theorem test_wf7_refuses : ¬ Table.CautionBeforeStop (tableRef.set 0 { rowGoW with next := rowGoW.next.set 4 idWalk }) := by decide
theorem test_wf8_refuses : ¬ Table.Clearance (tableRef.set 6 { rowC2 with next := rowC2.next.set 7 idC4 }) := by decide
theorem test_wf9_refuses : ¬ Table.WalkPatternLegal (tableRef.set 12 { rowDontWalk with walk := 0b11 }) := by decide
theorem test_wf10_refuses : ¬ Table.StartsGoWest (tableRef.set 0 { rowGoW with traffic := 0b100100 }) := by decide
theorem test_pin_vehicle_refuses : ¬ Table.PinnedVehicle (tableRef.set 0 { rowGoW with next := rowGoW.next.set 3 idWaitW }) := by decide
theorem test_pin_pedestrian_refuses : ¬ Table.PinnedPedestrian (tableRef.set 12 { rowDontWalk with next := rowDontWalk.next.set 0 idGoW }) := by decide
theorem test_pin_lamps_refuses : ¬ Table.PinnedLamps (tableRef.set 2 { rowGoS with traffic := 0b001100 }) := by decide
/-- An instruction cannot be ill formed: its operand is 3 bits by type and its identifier is that of its constructor. -/
theorem test_instr_wf : (Instr.dontWalk 7).wf = true ∧ (Instr.goW 0).wf = true := by decide

/-! Witnesses: states and operands that meet the hypotheses of the statements of Certificates/Slice0/Obligations.lean. -/

theorem tableRef_WF : tableRef.WF := by decide
theorem tableRef_PIN : tableRef.PIN := by decide

theorem witness_StepRunsDecodedInstruction : (mk idGoW [adv 2]).pins.rst = false ∧ (mk idGoW [adv 2]).pins.advance = true ∧
    decode (mk idGoW [adv 2]).fetchWord = .instr (.goW 2) := by decide
/-- Both clauses: a cursor with outputs, and a reserved one without. -/
theorem witness_ResetWinsOverAdvance : (mk idC2 [rst true 4]).pins.rst = true ∧
    (mk idC2 [rst true 4]).outputs tableRef = some ⟨0x24, 1, 25⟩ ∧
    (mk 13 [rst true 4]).pins.rst = true ∧ (mk 13 [rst true 4]).outputs tableRef = none := by decide
theorem witness_IdleEdgeHolds : (mk 15 [idle 7]).pins.rst = false ∧ (mk 15 [idle 7]).pins.advance = false := by decide
/-- Both clauses, at the boundary value 13: the fault, the hold and the reset. -/
theorem witness_ReservedCursorFaults : 13 ≤ (mk 13 [adv 0]).cur.toNat ∧ (mk 13 [adv 0]).pins.rst = false ∧
    (mk 13 [adv 0]).pins.advance = true ∧ cursorAfter (mk 13 [idle 0]) = some 13 ∧
    cursorAfter (mk 15 [rst true 0]) = some idGoW := by decide
theorem witness_OnlyReservedCursorStops : faultOf (step (mk 15 [adv 7])) = some (.invalidState 15) := by decide
theorem witness_EncodeDecodeRoundTrip : decode 0x67#7 = .instr (.dontWalk 7) := by decide
theorem witness_LegalWordsAreTheFirst104 : (0x67#7).toNat ≤ 0x67 ∧ 0x68 ≤ (0x68#7).toNat := by decide
theorem witness_PlacedWordRuns : decodeTableWord 8 0x38 = some (.c3 0) := by decide
theorem witness_IterationProtocol : (mk idDontWalk [adv 6]).pins.rst = false ∧ (mk idDontWalk [adv 6]).pins.advance = true ∧
    tableRef.row? (mk idDontWalk [adv 6]).cur = some rowDontWalk := by decide
theorem witness_TransitionTruthTable : (mk 12 [adv 7]).cur.toNat < 13 ∧ (mk 12 [adv 7]).pins.rst = false ∧
    (mk 12 [adv 7]).pins.advance = true := by decide
/-- A self-loop (X5), under `TABLE_REF`. -/
theorem witness_SelfLoopKeepsOutputs : (nextState (stepWith tableRef (mk idGoW [adv 3]))).map (·.cur) = some (mk idGoW [adv 3]).cur := by
  decide
theorem witness_StepReadsOnlyCursorAndPins : (mk idGoW [adv 2]).cur = (⟨idGoW, [adv 2, idle 0], 7, [.reset]⟩ : State).cur ∧
    (mk idGoW [adv 2]).pins = (⟨idGoW, [adv 2, idle 0], 7, [.reset]⟩ : State).pins ∧
    cursorAfter (mk idGoW [adv 2]) = some idWaitW := by decide
theorem witness_ResetForgetsThePast : (mk idC2 [rst false 0, adv 1]).pins.rst = true ∧
    (mk idC2 [rst false 0, adv 1]).stimulus = (⟨15, [rst false 0, adv 1], 0, [.reset]⟩ : State).stimulus ∧
    (mk idC2 [rst false 0, adv 1]).edge = (⟨15, [rst false 0, adv 1], 0, [.reset]⟩ : State).edge := by decide
/-- The two ends of the range. -/
theorem witness_CountdownIgnoresInput : 4 ≤ (Instr.walk 7).id.toNat ∧ (Instr.walk 7).id.toNat ≤ 11 ∧
    4 ≤ (Instr.c7 0).id.toNat ∧ (Instr.c7 0).id.toNat ≤ 11 := by decide
theorem witness_PedestrianRequestPolicy : (nextState (exec (.waitS 4) (mk idWaitS []))).map (·.cur) = some idWalk := by decide
/-- The implications of the lamp clauses: a west yellow and a south yellow, each with its successor. -/
theorem witness_TableRefIsWellFormed : cautionW (tableRef[1]).traffic = true ∧ ((tableRef[1]).succ 0).toNat = 2 ∧
    cautionS (tableRef[3]).traffic = true ∧ ((tableRef[3]).succ 0).toNat = 0 := by decide
theorem witness_ClosedTableKeepsCursorLegal : tableRef.Closed ∧ (mk 12 []).Legal := by decide
theorem witness_StepKeepsCursorLegal : (mk 12 [adv 0]).Legal := by decide
/-- A reset record with one iteration in it, and one more step; and a reset from a reserved cursor's record is a trace too. -/
theorem witness_StepKeepsRecordATrace :
    (⟨idWaitW, [adv 4], 1, [.present 0x0C 1, .wait 300, .inRead 4, .curWrite idWaitW]⟩ : State).Traced tableRef ∧
    cursorAfter ⟨idWaitW, [adv 4], 1, [.present 0x0C 1, .wait 300, .inRead 4, .curWrite idWaitW]⟩ = some idWalk := by decide
theorem witness_RunsStaySafe : tableRef.WF ∧ (mk idWalk []).Legal := ⟨tableRef_WF, by decide⟩
theorem witness_GreenEndsThroughYellow : tableRef.WF ∧ (mk idGoS [adv 0]).pins.rst = false ∧
    (mk idGoS [adv 0]).outputs tableRef = some ⟨0x21, 1, 300⟩ ∧ goS (0x21#6) = true ∧
    (mk idGoW [adv 0]).outputs tableRef = some ⟨0x0C, 1, 300⟩ ∧ goW (0x0C#6) = true := ⟨tableRef_WF, by decide⟩
/-- Eight advance edges with an idle one among them, and a pin level left over. -/
theorem witness_BoundedClearance :
    let ps := [adv 7, adv 0, idle 3, adv 3, adv 5, adv 1, adv 6, adv 2, adv 0]
    tableRef.WF ∧ (mk idWalk (ps ++ [idle 0])).cur = idWalk ∧ (mk idWalk (ps ++ [idle 0])).stimulus = ps ++ [idle 0] ∧
    (∀ p ∈ ps, p.rst = false) ∧ ps.countP (fun p => p.advance) = 8 := ⟨tableRef_WF, by decide⟩
theorem witness_DefaultCycle : tableRef.PIN ∧ (mk idGoW [adv 0, adv 0]).cur = idGoW ∧
    (mk idGoW [adv 0, adv 0]).stimulus = List.replicate 2 ⟨false, true, 0⟩ ++ [] := ⟨tableRef_PIN, by decide⟩
/-- Both clauses; the sensor may be 0 at an edge that takes no sample. -/
theorem witness_PresentTrafficKeepsGreen :
    let ps := [adv 3, idle 0, adv 7]
    (mk idGoW (ps ++ [adv 0])).stimulus = ps ++ [adv 0] ∧ (mk idGoW (ps ++ [adv 0])).cur = idGoW ∧
    (mk idGoS (ps ++ [adv 0])).stimulus = ps ++ [adv 0] ∧ (mk idGoS (ps ++ [adv 0])).cur = idGoS ∧
    (∀ p ∈ ps, p.rst = false) ∧ (∀ p ∈ ps, p.advance = true → inW p.inp = true) ∧
    (∀ p ∈ ps, p.advance = true → inS p.inp = true) := by decide
/-- A legal and a reserved cursor. -/
theorem witness_SensorEventsBetweenSamplesAreInvisible :
    (mk idGoW [idle 4, idle 0, adv 0]).stimulus = [idle 4, idle 0] ++ [adv 0] ∧
    (mk 13 [idle 4, idle 0, adv 0]).stimulus = [idle 4, idle 0] ++ [adv 0] ∧
    (∀ p ∈ [idle 4, idle 0], p.rst = false ∧ p.advance = false) := by decide
theorem witness_OneTransitionPerAdvance : tableRef.Closed ∧ (mk 12 [adv 0, idle 0, adv 2, adv 7]).Legal ∧
    (mk 12 [adv 0, idle 0, adv 2, adv 7]).stimulus = [adv 0, idle 0, adv 2] ++ [adv 7] ∧
    (∀ p ∈ [adv 0, idle 0, adv 2], p.rst = false) := by decide
/-- From a reserved cursor, two reset edges, a hold of one edge, then the sample. -/
theorem witness_FirstIterationAfterReset :
    (mk 14 [rst true 7, rst false 0, idle 4, adv 1, idle 0]).stimulus =
      (rst true 7 :: [rst false 0]) ++ ([idle 4] ++ ⟨false, true, 1⟩ :: [idle 0]) ∧
    (∀ p ∈ rst true 7 :: [rst false 0], p.rst = true) ∧ (∀ p ∈ [idle 4], p.rst = false ∧ p.advance = false) := by decide
theorem witness_EveryStateIsReachable : (12#4).toNat < 13 := by decide

end Sys2Proof.Machine.Tests
end

section
/-! The input vector and its three bits (R11). -/

namespace Sys2Proof

/-- The vector is built by appending one bit at a time at the low end. -/
theorem inVecOf_eq_concat (p s w : Bool) : inVecOf p s w = ((BitVec.ofBool p).concat s).concat w := rfl

/-- The appended bits weigh 4, 2 and 1. -/
theorem inVecOf_toNat (p s w : Bool) : (inVecOf p s w).toNat = 4 * p.toNat + 2 * s.toNat + w.toNat := by
  rw [inVecOf_eq_concat, BitVec.toNat_concat, BitVec.toNat_concat, BitVec.toNat_ofBool]
  omega

/-- The vector is rebuilt from its three bits, compared bit by bit. -/
theorem inVecOf_bits (v : InVec) : inVecOf (inP v) (inS v) (inW v) = v := by
  rw [inVecOf_eq_concat]
  apply BitVec.eq_of_getLsbD_eq
  intro i hi
  obtain rfl | rfl | rfl : i = 0 ∨ i = 1 ∨ i = 2 := by omega
  · simp [BitVec.getElem_concat, inW]
  · simp [BitVec.getElem_concat, inS]
  · simp [inP]

/-- Settles O8: the bits are the accessors' definitions, and the value is that of the vector rebuilt from them. -/
theorem inputVectorBits : Obligations.InputVectorBits := by
  intro v
  have hv : inVecOf (inP v) (inS v) (inW v) = v := inVecOf_bits v
  have hval : v.toNat = 4 * (inP v).toNat + 2 * (inS v).toNat + (inW v).toNat := by
    rw [← inVecOf_toNat, hv]
  exact ⟨rfl, rfl, rfl, hval, hv.symm⟩

end Sys2Proof
end

section
/-! The cursor right after reset (R24). -/

namespace Sys2Proof.Machine

/-- The initial state of the table is the "go west" state. -/
theorem sInit_eq_idGoW : sInit = idGoW := rfl

/-- Reset puts the initial state of the table in the cursor. -/
@[simp] theorem State.reset_cur : State.reset.cur = sInit := rfl

/-- Settles O1: reset takes the table's initial state, which is `GO_W`. -/
theorem resetEntersGoWest : Obligations.ResetEntersGoWest :=
  State.reset_cur.trans sInit_eq_idGoW

end Sys2Proof.Machine
end

section
/-! The exit of the pedestrian phase and its tie-break (R73, R74). -/

namespace Sys2Proof.Machine

/-- `DONT_WALK` is one iteration on its row (R73, R75). -/
theorem exec_dontWalk (v : InVec) (s : State) : exec (.dontWalk v) s = .next (s.iterate rowDontWalk v) := rfl

/-- Only a west request leads to `GO_W`: without one the exit is `GO_S`, with or without traffic from the south. -/
theorem rowDontWalk_succ_of_no_west {v : InVec} (h : inW v = false) : rowDontWalk.succ v = idGoS := by
  simp [rowDontWalk_succ, h]

/-- Settles O34: the next cursor is the row's successor of the sample alone, and input 0 holds no west request. -/
theorem tieBreakServesSouth : Obligations.TieBreakServesSouth := by
  intro s
  have hcur : (s.iterate rowDontWalk 0).cur = idGoS :=
    (iterate_cur s rowDontWalk 0).trans (rowDontWalk_succ_of_no_west rfl)
  exact ⟨s.iterate rowDontWalk 0, exec_dontWalk 0 s, hcur⟩

end Sys2Proof.Machine
end

section
/-! The step reads only the cursor and the pins (R17, R82). -/

namespace Sys2Proof.Machine

/-- The second answer cannot be told from the first by what R82 speaks of: it has the next cursor, or the fault, of the first. -/
def SameCursorOrFault (a b : Result) : Prop :=
  (∀ t, a = .next t → ∃ t', b = .next t' ∧ t'.cur = t.cur) ∧ (∀ f, a = .fault f → b = .fault f)

theorem sameCursorOrFault_next {t t' : State} (h : t'.cur = t.cur) : SameCursorOrFault (.next t) (.next t') := by
  constructor
  · rintro _ ⟨⟩
    exact ⟨t', rfl, h⟩
  · rintro _ ⟨⟩

theorem sameCursorOrFault_fault (f : Fault) : SameCursorOrFault (.fault f) (.fault f) := by
  constructor
  · rintro _ ⟨⟩
  · exact fun _ h => h

/-- Every instruction is one iteration (R75), and the instruction alone chooses the row and the sample. -/
theorem exec_eq_iterate (i : Instr) : ∃ r, ∀ s, exec i s = .next (s.iterate r i.operand) := by
  cases i <;> exact ⟨_, fun _ => rfl⟩

/-- What a fetched word does to the cursor depends on the word alone (R79). -/
theorem runWord_sameCursorOrFault (dw : DecodeWord) (s u : State) :
    SameCursorOrFault (runWord dw s) (runWord dw u) := by
  cases hd : decode dw with
  | instr i =>
    obtain ⟨r, hr⟩ := exec_eq_iterate i
    rw [runWord_of_instr hd, runWord_of_instr hd, hr, hr]
    exact sameCursorOrFault_next (by simp only [iterate_cur])
  | reservedState c =>
    rw [runWord_of_reserved hd, runWord_of_reserved hd]
    exact sameCursorOrFault_fault _

/-- A rising edge chooses by the pins: reset loads `S_INIT`, an idle edge holds the cursor, an advance edge runs the transition. -/
theorem risingEdge_sameCursorOrFault {T : Table} {f g : State → Result} {s u : State} (hcur : s.cur = u.cur)
    (hpins : s.pins = u.pins) (hadv : SameCursorOrFault (f s.passEdge) (g u.passEdge)) :
    SameCursorOrFault (risingEdge T f s) (risingEdge T g u) := by
  cases hr : s.pins.rst with
  | true =>
    rw [risingEdge_rst hr, risingEdge_rst (hpins ▸ hr)]
    exact sameCursorOrFault_next (by simp only [takeReset_cur])
  | false =>
    cases ha : s.pins.advance with
    | true =>
      rw [risingEdge_advance hr ha, risingEdge_advance (hpins ▸ hr) (hpins ▸ ha)]
      exact hadv
    | false =>
      rw [risingEdge_idle hr ha, risingEdge_idle (hpins ▸ hr) (hpins ▸ ha)]
      exact sameCursorOrFault_next hcur.symm

/-- The block fetches `{cur, in}` (R42): nothing else of the state enters the word. -/
theorem fetchWord_congr {s u : State} (hcur : s.cur = u.cur) (hpins : s.pins = u.pins) :
    s.fetchWord = u.fetchWord := by
  simp only [State.fetchWord, hcur, hpins]

/-- Settles O30: both states fetch the same word, and the edge and the word then decide the next cursor or the fault. -/
theorem stepReadsOnlyCursorAndPins : Obligations.StepReadsOnlyCursorAndPins := by
  intro s u hcur hpins
  have hword : SameCursorOrFault (runWord s.fetchWord s.passEdge) (runWord u.fetchWord u.passEdge) :=
    fetchWord_congr hcur hpins ▸ runWord_sameCursorOrFault s.fetchWord s.passEdge u.passEdge
  exact risingEdge_sameCursorOrFault hcur hpins hword

end Sys2Proof.Machine
end

section
/-! A sensor that stays at 1 keeps the green of its direction (R114). -/

namespace Sys2Proof.Machine

/-- Every sample that satisfies `stays` leads from the state `c` back to it, and the word that does so uses up no pin levels. -/
def SelfLoopOn (c : StateId) (stays : InVec → Bool) : Prop :=
  ∀ v, stays v = true → ∀ s, ∃ t, runWord (decodeWord c v) s = .next t ∧ t.cur = c ∧ t.stimulus = s.stimulus

/-- `GO_W` is one iteration on its row (R58, R75). -/
theorem exec_goW (v : InVec) (s : State) : exec (.goW v) s = .next (s.iterate rowGoW v) := rfl

/-- `GO_S` is one iteration on its row (R60, R75). -/
theorem exec_goS (v : InVec) (s : State) : exec (.goS v) s = .next (s.iterate rowGoS v) := rfl

/-- An instruction that is one iteration on a row leads back to its state where the row names that state as successor. -/
theorem runWord_self_loop {c : StateId} {v : InVec} {i : Instr} {r : Row} (hdec : decode (decodeWord c v) = .instr i)
    (hexec : ∀ s, exec i s = .next (s.iterate r v)) (hsucc : r.succ v = c) (s : State) :
    ∃ t, runWord (decodeWord c v) s = .next t ∧ t.cur = c ∧ t.stimulus = s.stimulus :=
  ⟨s.iterate r v, (runWord_of_instr hdec s).trans (hexec s), (iterate_cur s r v).trans hsucc, iterate_stimulus s r v⟩

/-- West traffic keeps `GO_W` (R58, D10). -/
theorem goW_selfLoopOn_west : SelfLoopOn idGoW inW := fun v hw =>
  runWord_self_loop (decode_goW v) (exec_goW v) (by simp [rowGoW_succ, hw])

/-- South traffic keeps `GO_S` (R60, D12). -/
theorem goS_selfLoopOn_south : SelfLoopOn idGoS inS := fun v hs =>
  runWord_self_loop (decode_goS v) (exec_goS v) (by simp [rowGoS_succ, hs])

/-- One edge without reset: an advance edge takes the self-loop, an idle edge holds (R76). -/
theorem step_keeps_selfLoop {c : StateId} {stays : InVec → Bool} (hloop : SelfLoopOn c stays) {s : State} {p : Pins}
    {ps : List Pins} (hstim : s.stimulus = p :: ps) (hcur : s.cur = c) (hrst : p.rst = false)
    (hstay : p.advance = true → stays p.inp = true) : ∃ t, step s = .next t ∧ t.cur = c ∧ t.stimulus = ps := by
  have hpins : s.pins = p := pins_of_cons hstim
  have htail : s.passEdge.stimulus = ps := by rw [passEdge_stimulus, hstim, List.tail_cons]
  cases hadv : p.advance with
  | true =>
    have hword : s.fetchWord = decodeWord c p.inp := by rw [State.fetchWord, hcur, hpins]
    have hstep : step s = runWord (decodeWord c p.inp) s.passEdge :=
      hword ▸ risingEdge_advance (hpins ▸ hrst) (hpins ▸ hadv)
    obtain ⟨t, hrun, ht, hrest⟩ := hloop p.inp (hstay hadv) s.passEdge
    exact ⟨t, hstep.trans hrun, ht, hrest.trans htail⟩
  | false => exact ⟨s.passEdge, risingEdge_idle (hpins ▸ hrst) (hpins ▸ hadv), hcur, htail⟩

/-- Any number of edges without reset, while every sample taken satisfies `stays`. -/
theorem runSteps_keeps_selfLoop {c : StateId} {stays : InVec → Bool} (hloop : SelfLoopOn c stays) {ps rest : List Pins}
    {s : State} (hstim : s.stimulus = ps ++ rest) (hcur : s.cur = c) (hrst : ∀ p ∈ ps, p.rst = false)
    (hstay : ∀ p ∈ ps, p.advance = true → stays p.inp = true) :
    ∃ t, runSteps step ps.length s = .next t ∧ t.cur = c := by
  induction ps generalizing s with
  | nil => exact ⟨s, runSteps_zero step s, hcur⟩
  | cons p ps ih =>
    rw [List.forall_mem_cons] at hrst hstay
    obtain ⟨u, hu, hucur, hustim⟩ := step_keeps_selfLoop hloop hstim hcur hrst.1 hstay.1
    obtain ⟨t, ht, htcur⟩ := ih hustim hucur hrst.2 hstay.2
    exact ⟨t, (runSteps_succ hu ps.length).trans ht, htcur⟩

/-- Settles O45: each green state has a self-loop on its own direction's sensor, and a run takes nothing but that loop. -/
theorem presentTrafficKeepsGreen : Obligations.PresentTrafficKeepsGreen := by
  intro ps rest s hstim hrst
  exact ⟨fun hcur hwest => runSteps_keeps_selfLoop goW_selfLoopOn_west hstim hcur hrst hwest,
    fun hcur hsouth => runSteps_keeps_selfLoop goS_selfLoopOn_south hstim hcur hrst hsouth⟩

end Sys2Proof.Machine
end

section
/-! The decoder and the encoder are inverse to each other on the legal words (R42 to R45, R51, R52). -/

namespace Sys2Proof

/-- Each row of the opcode table builds the instructions of the identifier that is its number (R45, R55). -/
theorem opcodeTable_build (c : StateId) (hc : c.toNat < 13) (v : InVec) :
    ((opcodeTable[c.toNat]'hc).build v).id = c ∧ ((opcodeTable[c.toNat]'hc).build v).operand = v := by
  revert c v; decide

/-- A legal identifier and an operand are those of an instruction. -/
theorem exists_instr {c : StateId} (hc : c.toNat < 13) (v : InVec) : ∃ i : Instr, i.id = c ∧ i.operand = v :=
  ⟨_, opcodeTable_build c hc v⟩

theorem encode_eq {i : Instr} {c : StateId} {v : InVec} (hid : i.id = c) (hop : i.operand = v) :
    encode i = decodeWord c v := by
  rw [encode, hid, hop]

theorem decode_encode (i : Instr) : decode (encode i) = .instr i := by
  cases i with
  | goW v => exact decode_goW v
  | waitW v => exact decode_waitW v
  | goS v => exact decode_goS v
  | waitS v => exact decode_waitS v
  | walk v => exact decode_walk v
  | c1 v => exact decode_c1 v
  | c2 v => exact decode_c2 v
  | c3 v => exact decode_c3 v
  | c4 v => exact decode_c4 v
  | c5 v => exact decode_c5 v
  | c6 v => exact decode_c6 v
  | c7 v => exact decode_c7 v
  | dontWalk v => exact decode_dontWalk v

/-- Settles O10: every constructor decodes from its own word. -/
theorem decodeEncodeRoundTrip : Obligations.DecodeEncodeRoundTrip := decode_encode

/-- An instruction is its identifier and its operand: the decoder gives it back from the two. -/
theorem instr_ext {i j : Instr} (hid : i.id = j.id) (hop : i.operand = j.operand) : i = j := by
  have hword : encode i = encode j := encode_eq hid hop
  exact Decoded.instr.inj ((decode_encode i).symm.trans ((congrArg decode hword).trans (decode_encode j)))

/-- No instruction has a reserved identifier. -/
theorem id_lt (i : Instr) : i.id.toNat < 13 := by
  by_contra hc
  have hreserved : decode (encode i) = .reservedState i.id := decode_reserved (Nat.le_of_not_lt hc) i.operand
  cases hreserved.symm.trans (decode_encode i)

theorem wf_instr (i : Instr) : i.wf = true := by
  simp [Instr.wf, Config.nStates, id_lt]

/-- A word with a legal state field decodes, and the instruction has the word's two fields. -/
theorem decode_of_lt {c : StateId} (hc : c.toNat < 13) (v : InVec) :
    ∃ i, decode (decodeWord c v) = .instr i ∧ i.id = c ∧ i.operand = v := by
  obtain ⟨i, hid, hop⟩ := exists_instr hc v
  exact ⟨i, encode_eq hid hop ▸ decode_encode i, hid, hop⟩

/-- The decoder answers an instruction for no word but the instruction's own. -/
theorem encode_of_decode {dw : DecodeWord} {i : Instr} (h : decode dw = .instr i) : encode i = dw := by
  rw [← decodeWord_fields dw] at h ⊢
  by_cases hc : (stateField dw).toNat < 13
  · obtain ⟨j, hj, hid, hop⟩ := decode_of_lt hc (operandField dw)
    obtain rfl : i = j := Decoded.instr.inj (h.symm.trans hj)
    exact encode_eq hid hop
  · cases (decode_reserved (Nat.le_of_not_lt hc) _).symm.trans h

/-- Settles O11: a legal word is the word of an instruction, which is the one it decodes to. -/
theorem encodeDecodeRoundTrip : Obligations.EncodeDecodeRoundTrip := fun _ _ => encode_of_decode

/-- The fields of a word that decodes are those of the instruction (R43). -/
theorem fields_of_decode {c : StateId} {v : InVec} {i : Instr} (h : decode (decodeWord c v) = .instr i) :
    i.id = c ∧ i.operand = v := by
  have hword : decodeWord i.id i.operand = decodeWord c v := encode_of_decode h
  constructor
  · simpa using congrArg stateField hword
  · simpa using congrArg operandField hword

/-- The state field is the word without its low three bits, so `0x68` is the first word with a reserved one. -/
theorem stateField_toNat (dw : DecodeWord) : (stateField dw).toNat = dw.toNat / 8 := by
  have hlt := dw.isLt
  simp only [stateField, BitVec.extractLsb'_toNat, Nat.shiftRight_eq_div_pow]
  omega

/-- Settles O12: a word is legal when its state field is below 13, that is, when the word is below `8 * 13 = 0x68`. -/
theorem legalWordsAreTheFirst104 : Obligations.LegalWordsAreTheFirst104 := by
  intro dw
  have hfield := stateField_toNat dw
  constructor
  · intro hle
    have hdec := decode_of_lt (c := stateField dw) (by omega) (operandField dw)
    rwa [decodeWord_fields] at hdec
  · intro hge
    have hdec := decode_reserved (c := stateField dw) (by omega) (operandField dw)
    rwa [decodeWord_fields] at hdec

/-- Settles O9: each written word is `{id, v}` of its instruction, and the last two have the identifiers 13 and 15. -/
theorem decodeOfWrittenWords : Obligations.DecodeOfWrittenWords :=
  ⟨decode_goW 2, decode_waitW 5, decode_goS 1, decode_waitS 3, decode_walk 7, decode_c1 0, decode_c2 4, decode_c3 2,
    decode_c4 6, decode_c5 1, decode_c6 5, decode_c7 3, decode_dontWalk 1, decode_dontWalk 7,
    decode_reserved (c := 13) (by decide) 0, decode_reserved (c := 15) (by decide) 7⟩

end Sys2Proof
end

section
/-! A row and its packed word (R47, R48), and the packed rows of `TABLE_REF`. -/

namespace Sys2Proof

/-- A field that lies above the appended word is read from what the word was appended to. -/
theorem extractLsb'_above {a b len start : Nat} {x : BitVec a} {y : BitVec b} {field : BitVec len} (hle : b ≤ start)
    (h : x.extractLsb' (start - b) len = field) : (x ++ y).extractLsb' start len = field :=
  (BitVec.extractLsb'_append_eq_of_le hle).trans h

/-- Two fields that lie next to each other in a word are one field of it. -/
theorem append_extractLsb' {w n m start : Nat} {x : BitVec w} {hi : BitVec n}
    (h : hi = x.extractLsb' (start + m) n) : hi ++ x.extractLsb' start m = x.extractLsb' start (n + m) :=
  h ▸ BitVec.extractLsb'_append_extractLsb'_eq_extractLsb' rfl

/-- Rows with equal patterns, holds and successors are equal. -/
theorem row_ext {r q : Row} (htraffic : r.traffic = q.traffic) (hwalk : r.walk = q.walk) (hhold : r.hold = q.hold)
    (hsucc : ∀ v, r.succ v = q.succ v) : r = q := by
  obtain ⟨traffic, walk, hold, next⟩ := r
  obtain rfl := htraffic
  obtain rfl := hwalk
  obtain rfl := hhold
  congr 1
  ext v hv : 1
  exact hsucc (BitVec.ofFin ⟨v, hv⟩)

theorem unpackRow_succ (w : RowWord) (v : InVec) : (unpackRow w).succ v = packedSucc w v := by
  fin_cases v <;> rfl

/-- Successor `v` is read back from its place, which has `v` other successors below it. -/
theorem packedSucc_pack (r : Row) (v : InVec) : packedSucc r.pack v = r.succ v := by
  fin_cases v
  all_goals
    repeat apply extractLsb'_above (by decide)
    exact BitVec.extractLsb'_append_eq_right

/-- Each field of a row is read back from its place in the packed word: below the hold are the eight successors. -/
theorem unpackRow_pack (r : Row) : unpackRow r.pack = r := by
  apply row_ext
  case htraffic =>
    iterate 10 apply extractLsb'_above (by decide)
    exact BitVec.extractLsb'_eq_self
  case hwalk =>
    iterate 9 apply extractLsb'_above (by decide)
    exact BitVec.extractLsb'_append_eq_right
  case hhold =>
    iterate 8 apply extractLsb'_above (by decide)
    exact BitVec.extractLsb'_append_eq_right
  case hsucc => exact fun v => (unpackRow_succ r.pack v).trans (packedSucc_pack r v)

/-- The eleven fields of a packed word lie next to each other and fill it. -/
theorem pack_unpackRow (w : RowWord) : (unpackRow w).pack = w := by
  refine Eq.trans ?_ BitVec.extractLsb'_eq_self
  iterate 10 apply append_extractLsb'
  rfl

/-- Settles O14: packing and unpacking are inverse, and the successors of an unpacked word are its fields. -/
theorem packedRowRoundTrip : Obligations.PackedRowRoundTrip :=
  ⟨unpackRow_pack, pack_unpackRow, unpackRow_succ⟩

/-- Settles O15: thirteen closed words, computed. -/
theorem packedRowsOfTableRef : Obligations.PackedRowsOfTableRef := by
  unfold Obligations.PackedRowsOfTableRef
  decide

/-- The successors of a row as one word, `next[7]` in the high bits: the low 32 bits of the packed row (R47). -/
def Row.nextWord (r : Row) : BitVec 32 := r.pack.extractLsb' 0 32

theorem nextWord_field (r : Row) (v : InVec) : r.nextWord.extractLsb' (4 * v.toNat) 4 = r.succ v := by
  have hv := v.isLt
  rw [Row.nextWord, BitVec.extractLsb'_extractLsb'_of_le (by omega)]
  exact packedSucc_pack r v

/-- The `next[7..0]` words of `TABLE_REF` (`95_test_vectors.md` section 2). -/
theorem tableRef_nextWords : tableRef.toList.map Row.nextWord =
    [0x01010101#32, 0x44442222#32, 0x22332233#32, 0x44440000#32, 0x55555555#32, 0x66666666#32, 0x77777777#32,
      0x88888888#32, 0x99999999#32, 0xAAAAAAAA#32, 0xBBBBBBBB#32, 0xCCCCCCCC#32, 0x22022202#32] := by
  decide

/-- Reading a table through a function of its rows. -/
theorem getElem?_map_rows {α : Type} (T : Table) (f : Row → α) (c : StateId) :
    (T.toList.map f)[c.toNat]? = (T.row? c).map f := by
  rw [List.getElem?_map, Vector.getElem?_toList, Table.row?]

end Sys2Proof
end

section
/-! `TABLE_REF`: well-formedness, the pinned cells, the outputs and the holds (R80, R84, R85, R116). -/

namespace Sys2Proof

theorem tableRef_closed : tableRef.Closed := by decide

theorem tableRef_clearance : tableRef.Clearance := by decide

/-- `TABLE_REF` is well formed, clause by clause (R84). -/
theorem tableRef_wf : tableRef.WF :=
  ⟨tableRef_closed, by decide, by decide, by decide, by decide, tableRef_clearance, by decide, by decide⟩

/-- `TABLE_REF` has the pinned cells and lamps (R85). -/
theorem tableRef_pin : tableRef.PIN := ⟨by decide, by decide, by decide⟩

/-- Settles O35: finitely many cells and lamps of one table, each clause computed. -/
theorem tableRefIsWellFormed : Obligations.TableRefIsWellFormed :=
  ⟨tableRef_wf, tableRef_pin, by decide, by decide, by decide⟩

/-- Settles O27: the outputs at an identifier are read from the list of the rows' outputs. -/
theorem outputTable : Obligations.OutputTable :=
  fun c => (getElem?_map_rows tableRef Row.outputs c).symm

theorem tableRef_holds : tableRef.toList.map (fun r => r.hold.toNat) =
    [300, 100, 300, 100, 300, 25, 25, 25, 25, 25, 25, 25, 100] := by
  decide

/-- Settles O36: sums over the list of the thirteen holds. -/
theorem holdSums : Obligations.HoldSums := by
  unfold Obligations.HoldSums
  rw [tableRef_holds]
  decide

/-- The successors in a row of a closed table are legal identifiers (WF2). -/
theorem succ_lt_of_closed {T : Table} (hT : T.Closed) {c : StateId} {r : Row} (hrow : T.row? c = some r) (v : InVec) :
    (r.succ v).toNat < 13 := by
  obtain ⟨n, -, rfl⟩ := row?_eq_some hrow
  exact hT n v

/-- In `WALK` and the countdown every sample leads to the next identifier (R62, WF8). -/
theorem succ_of_clearance {T : Table} (hT : T.Clearance) {c : StateId} {r : Row} (hrow : T.row? c = some r)
    (hlo : 4 ≤ c.toNat) (hhi : c.toNat ≤ 11) (v : InVec) : (r.succ v).toNat = c.toNat + 1 := by
  obtain ⟨-, -, -, hnext⟩ := hT
  obtain ⟨n, hn, rfl⟩ := row?_eq_some hrow
  rw [hn] at hlo hhi ⊢
  exact hnext n hlo hhi v

theorem succ?_of_row {T : Table} {c : StateId} {r : Row} (hrow : T.row? c = some r) (v : InVec) :
    T.succ? c v = some (r.succ v) := by
  rw [Table.succ?, hrow, Option.map_some]

end Sys2Proof
end

section
/-! What each instruction does: one iteration on its row (R14, R58 to R61, R65 to R75). -/

namespace Sys2Proof.Machine

/-- An iteration whose successor is known, as one update of the state. -/
theorem iteration_eq {r : Row} {v : InVec} {n : StateId} (hsucc : r.succ v = n) (s : State) :
    iteration r v s = .next { s with
      cur := n,
      accesses := s.accesses ++ [.present r.traffic r.walk, .wait r.hold, .inRead v, .curWrite n] } := by
  rw [iteration, iterate_eq, hsucc]

/-- Settles O16: the iteration, with the row's successor as R58 writes it. -/
theorem goWRuns : Obligations.GoWRuns := fun v s => iteration_eq (rowGoW_succ v) s

/-- Settles O17: the iteration, with the row's successor as R59 writes it. -/
theorem waitWRuns : Obligations.WaitWRuns := fun v s => iteration_eq (rowWaitW_succ v) s

/-- Settles O18: the iteration, with the row's successor as R60 writes it. -/
theorem goSRuns : Obligations.GoSRuns := fun v s => iteration_eq (rowGoS_succ v) s

/-- Settles O19: the iteration, with the row's successor as R61 writes it. -/
theorem waitSRuns : Obligations.WaitSRuns := fun v s => iteration_eq (rowWaitS_succ v) s

/-- Settles O20: the iteration, with the row's successor as R65 writes it. -/
theorem walkRuns : Obligations.WalkRuns := fun v s => iteration_eq (rowWalk_succ v) s

/-- Settles O21: the iterations, with the rows' successors as R66, R68, R70 and R72 write them. -/
theorem darkCountdownRuns : Obligations.DarkCountdownRuns := fun v s =>
  ⟨iteration_eq (rowC1_succ v) s, iteration_eq (rowC3_succ v) s, iteration_eq (rowC5_succ v) s,
    iteration_eq (rowC7_succ v) s⟩

/-- Settles O22: the iterations, with the rows' successors as R67, R69 and R71 write them. -/
theorem litCountdownRuns : Obligations.LitCountdownRuns := fun v s =>
  ⟨iteration_eq (rowC2_succ v) s, iteration_eq (rowC4_succ v) s, iteration_eq (rowC6_succ v) s⟩

/-- The exit's condition, written with the two bits as propositions. -/
theorem rowDontWalk_succ_eq (v : InVec) :
    rowDontWalk.succ v = if inS v = false ∧ inW v = true then idGoW else idGoS := by
  simp [rowDontWalk_succ]

/-- Settles O23: the iteration, with the row's successor as R73 writes it. -/
theorem dontWalkRuns : Obligations.DontWalkRuns := fun v s => iteration_eq (rowDontWalk_succ_eq v) s

/-- Every instruction is one iteration, with its operand as the sample, on the row of its identifier in `TABLE_REF`. -/
theorem exec_on_row (i : Instr) :
    ∃ r, tableRef.row? i.id = some r ∧ ∀ s, exec i s = .next (s.iterate r i.operand) := by
  cases i <;> exact ⟨_, rfl, fun _ => rfl⟩

/-- Settles O24. -/
theorem execFollowsItsRow : Obligations.ExecFollowsItsRow := by
  intro i s
  obtain ⟨r, hrow, hexec⟩ := exec_on_row i
  exact ⟨r, hrow, (hexec s).trans (iteration_eq rfl s)⟩

/-- Settles O32: the rows 4 to 11 of `TABLE_REF` satisfy WF8, and `DONT_WALK` tells the samples 0 and 1 apart. -/
theorem countdownIgnoresInput : Obligations.CountdownIgnoresInput := by
  refine ⟨?_, ?_, 0, 1, by decide⟩
  · intro i s hlo hhi
    obtain ⟨r, hrow, hexec⟩ := exec_on_row i
    exact ⟨_, _, _, _, hexec s, succ_of_clearance tableRef_clearance hrow hlo hhi i.operand, iterate_accesses s r _⟩
  · intro c v v' hlo hhi
    have hrow := row?_of_lt tableRef (s := c) (by omega)
    have hnext := succ_of_clearance tableRef_clearance hrow hlo hhi
    rw [succ?_of_row hrow, succ?_of_row hrow, BitVec.eq_of_toNat_eq ((hnext v).trans (hnext v').symm)]

/-- Masking with 3 clears the pedestrian bit alone. -/
theorem inW_and_three (v : InVec) : inW (v &&& 3) = inW v := by revert v; decide
theorem inS_and_three (v : InVec) : inS (v &&& 3) = inS v := by revert v; decide

/-- The cells of `TABLE_REF` that hold `WALK`: those of the two yellow states with the pedestrian bit 1. -/
theorem tableRef_succ_eq_walk {n : Fin 13} {v : InVec} (h : (tableRef[n]).succ v = idWalk) :
    v[2] = true ∧ (n = 1 ∨ n = 3) := by
  revert n v; decide

/-- An instruction that loads `WALK` is a yellow state with the pedestrian bit 1. -/
theorem enters_walk {i : Instr} {s t : State} (hexec : exec i s = .next t) (hwalk : t.cur = idWalk) :
    ∃ v : InVec, v[2] = true ∧ (i = .waitW v ∨ i = .waitS v) := by
  obtain ⟨r, hrow, hrun⟩ := exec_on_row i
  obtain ⟨n, hid, rfl⟩ := row?_eq_some hrow
  obtain rfl : s.iterate (tableRef[n]) i.operand = t := Host.Outcome.next.inj ((hrun s).symm.trans hexec)
  obtain ⟨hped, hn⟩ := tableRef_succ_eq_walk hwalk
  refine ⟨i.operand, hped, hn.imp ?_ ?_⟩
  all_goals
    rintro rfl
    exact instr_ext (BitVec.eq_of_toNat_eq hid) rfl

/-- Settles O33: a green row reads its own direction's bit, a yellow row the pedestrian bit, and no other row holds `WALK`. -/
theorem pedestrianRequestPolicy : Obligations.PedestrianRequestPolicy := by
  refine ⟨fun v => ⟨?_, ?_⟩, fun v s => ?_, fun i s t => enters_walk⟩
  · have hrow : tableRef.row? idGoW = some rowGoW := rfl
    rw [succ?_of_row hrow, succ?_of_row hrow, rowGoW_succ, rowGoW_succ, inW_and_three]
  · have hrow : tableRef.row? idGoS = some rowGoS := rfl
    rw [succ?_of_row hrow, succ?_of_row hrow, rowGoS_succ, rowGoS_succ, inS_and_three]
  · exact ⟨_, _, waitWRuns v s, waitSRuns v s, rfl, rfl⟩

end Sys2Proof.Machine
end

section
/-! The machine that decodes is the table-driven machine at `TABLE_REF`; the edges one by one (R76 to R81, R94, R105). -/

namespace Sys2Proof.Machine

/-- A decoded word runs on the cursor's row, or faults where there is none: the two machines agree on a transition. -/
theorem runWord_eq_runRow (v : InVec) (s : State) : runWord (decodeWord s.cur v) s = runRow tableRef v s := by
  by_cases hc : s.cur.toNat < 13
  · obtain ⟨i, hdec, hid, hop⟩ := decode_of_lt hc v
    obtain ⟨r, hrow, hexec⟩ := exec_on_row i
    rw [runWord_of_instr hdec, hexec, hop, runRow_of_row (hid ▸ hrow)]
  · have hge := Nat.le_of_not_lt hc
    rw [runWord_of_reserved (decode_reserved hge v), runRow_of_no_row (row?_of_ge tableRef hge)]

/-- An edge depends on the transition only at the state after the edge. -/
theorem risingEdge_congr {T : Table} {f g : State → Result} {s : State} (h : f s.passEdge = g s.passEdge) :
    risingEdge T f s = risingEdge T g s := by
  simp only [risingEdge, h]

/-- Settles O29: the edges differ in the transition alone, where the two machines agree. -/
theorem decodedMachineIsTableDriven : Obligations.DecodedMachineIsTableDriven := fun s =>
  risingEdge_congr (runWord_eq_runRow s.pins.inp s.passEdge)

theorem step_eq_stepWith : step = stepWith tableRef := funext decodedMachineIsTableDriven

/-- An advance edge runs the instruction that the fetched word decodes to. -/
theorem step_of_instr {s : State} {i : Instr} (hrst : s.pins.rst = false) (hadv : s.pins.advance = true)
    (hdec : decode s.fetchWord = .instr i) : step s = exec i s.passEdge :=
  (risingEdge_advance hrst hadv).trans (runWord_of_instr hdec _)

/-- Settles O3: the word is `{cur, in}`, so the instruction has these two fields. -/
theorem stepRunsDecodedInstruction : Obligations.StepRunsDecodedInstruction := by
  intro s i hrst hadv hdec
  obtain ⟨hid, hop⟩ := fields_of_decode hdec
  exact ⟨step_of_instr hrst hadv hdec, rfl, rfl, hid, hop, wf_instr i⟩

/-- A placed word is the word that is fetched. -/
theorem placeWord_fetchWord (s : State) (w : Nat) : (s.placeWord w).fetchWord = BitVec.ofNat 7 w := by
  rw [State.fetchWord, placeWord_cur, placeWord_pins, decodeWord_fields]

theorem decode_of_decodeTableWord {nbits w : Nat} {i : Instr} (h : decodeTableWord nbits w = some i) :
    decode (BitVec.ofNat 7 w) = .instr i := by
  rw [decodeTableWord] at h
  cases hdec : decode (BitVec.ofNat 7 w) with
  | instr j =>
    rw [hdec] at h
    exact congrArg _ (Option.some.inj h)
  | reservedState c =>
    rw [hdec] at h
    cases h

/-- Settles O13: the placed word is fetched at an advance edge. -/
theorem placedWordRuns : Obligations.PlacedWordRuns := by
  intro s nbits w i h
  exact step_of_instr rfl rfl ((congrArg decode (placeWord_fetchWord s w)).trans (decode_of_decodeTableWord h))

/-- Every edge answers a next state, but an advance edge at a cursor without a row. -/
theorem stepWith_next_or_fault (T : Table) (s : State) :
    (∃ t, stepWith T s = .next t) ∨
    (s.pins.rst = false ∧ s.pins.advance = true ∧ T.row? s.cur = none ∧
      stepWith T s = .fault (.invalidState s.cur)) := by
  cases hrst : s.pins.rst with
  | true => exact .inl ⟨_, stepWith_rst hrst⟩
  | false =>
    cases hadv : s.pins.advance with
    | false => exact .inl ⟨_, stepWith_idle hrst hadv⟩
    | true =>
      cases hrow : T.row? s.cur with
      | some r => exact .inl ⟨_, stepWith_of_row hrst hadv hrow⟩
      | none => exact .inr ⟨rfl, rfl, rfl, stepWith_of_no_row hrst hadv hrow⟩

/-- Only a reserved identifier names no row. -/
theorem le_of_row?_eq_none {T : Table} {c : StateId} (h : T.row? c = none) : 13 ≤ c.toNat := by
  by_contra hlt
  cases h.symm.trans (row?_of_lt T (Nat.lt_of_not_le hlt))

/-- Settles O7: an edge that does not answer a next state is the fault of a cursor without a row. -/
theorem onlyReservedCursorStops : Obligations.OnlyReservedCursorStops := by
  intro s
  rw [step_eq_stepWith]
  obtain ⟨t, ht⟩ | ⟨hrst, hadv, hrow, hfault⟩ := stepWith_next_or_fault tableRef s
  · rw [ht]
    exact ⟨nofun, nofun⟩
  · rw [hfault]
    refine ⟨nofun, ?_⟩
    rintro _ ⟨⟩
    exact ⟨rfl, le_of_row?_eq_none hrow, hrst, hadv⟩

/-- Settles O6: without a row an edge is the fault, a hold or a reset. -/
theorem reservedCursorFaults : Obligations.ReservedCursorFaults := by
  intro s hge
  have hrow : tableRef.row? s.cur = none := row?_of_ge tableRef hge
  rw [step_eq_stepWith]
  refine ⟨fun hrst hadv => stepWith_of_no_row hrst hadv hrow, fun t ht => ?_⟩
  obtain ⟨hrst, rfl⟩ | ⟨-, -, r, hr, -⟩ | ⟨-, -, rfl⟩ := stepWith_next ht
  · exact .inr ⟨hrst, takeReset_cur tableRef s.passEdge⟩
  · cases hrow.symm.trans hr
  · exact .inl (passEdge_cur s)

theorem outputs_eq_some_iff {T : Table} {s : State} {o : Outputs} :
    s.outputs T = some o ↔ ∃ r, T.row? s.cur = some r ∧ r.outputs = o :=
  Option.map_eq_some_iff

/-- Settles O4: a reset records the patterns of the cursor's row, if there is one, and itself. -/
theorem resetWinsOverAdvance : Obligations.ResetWinsOverAdvance := by
  intro s hrst
  rw [step_eq_stepWith]
  refine ⟨_, stepWith_rst hrst, takeReset_cur _ _, takeReset_stimulus _ _, takeReset_edge _ _, ?_, ?_⟩
  · intro o ho
    obtain ⟨r, hrow, rfl⟩ := outputs_eq_some_iff.mp ho
    exact congrArg State.accesses (takeReset_of_row (s := s.passEdge) hrow)
  · intro ho
    have hrow : tableRef.row? s.cur = none := Option.map_eq_none_iff.mp ho
    exact congrArg State.accesses (takeReset_of_no_row (s := s.passEdge) hrow)

/-- Settles O5: an idle edge only passes. -/
theorem idleEdgeHolds : Obligations.IdleEdgeHolds := fun _ hrst hadv => risingEdge_idle hrst hadv

/-- Settles O25: the advance edge is an iteration on the cursor's row. -/
theorem iterationProtocol : Obligations.IterationProtocol := by
  intro s r hrst hadv hrow
  rw [step_eq_stepWith, stepWith_of_row hrst hadv hrow, iterate_eq]
  rfl

/-- Settles O26: the `next[7..0]` words are those of the rows, and their fields the rows' successors. -/
theorem transitionTruthTable : Obligations.TransitionTruthTable := by
  intro s hc hrst hadv
  have hrow := row?_of_lt tableRef hc
  refine ⟨_, _, (decodedMachineIsTableDriven s).trans (stepWith_of_row hrst hadv hrow), ?_,
    (nextWord_field _ s.pins.inp).symm⟩
  rw [← tableRef_nextWords, getElem?_map_rows, hrow, Option.map_some]

/-- Settles O28: the ports read nothing of the state but the cursor. -/
theorem selfLoopKeepsOutputs : Obligations.SelfLoopKeepsOutputs := by
  intro T
  have hports : ∀ s u : State, s.cur = u.cur → s.outputs T = u.outputs T := fun _ _ hcur => congrArg T.out? hcur
  exact ⟨hports, fun s t _ hcur => hports t s hcur⟩

/-- Settles O2: the cursor after reset is `S_INIT`, and the ports show its row. -/
theorem resetPortsShowGoWest : Obligations.ResetPortsShowGoWest :=
  outputs_eq_some_iff.mpr ⟨rowGoW, rfl, rfl⟩

end Sys2Proof.Machine
end

section
/-! The invariants: a legal cursor, safe lamps, and a record that is a trace (R86, R38, R81). -/

namespace Sys2Proof.Machine

/-- A closed table keeps the cursor legal: a legal cursor has a row, so no edge faults, and the row's successors are legal. -/
theorem stepWith_keeps_legal {T : Table} (hT : T.Closed) {s : State} (hs : s.Legal) :
    ∃ t, stepWith T s = .next t ∧ t.Legal := by
  obtain ⟨t, ht⟩ | ⟨-, -, hrow, -⟩ := stepWith_next_or_fault T s
  · refine ⟨t, ht, ?_⟩
    obtain ⟨-, rfl⟩ | ⟨-, -, r, hrow, rfl⟩ | ⟨-, -, rfl⟩ := stepWith_next ht
    · exact Nat.zero_lt_succ 12
    · exact succ_lt_of_closed hT hrow s.pins.inp
    · exact hs
  · exact absurd (le_of_row?_eq_none hrow) (Nat.not_le_of_lt hs)

/-- Settles O37, by the step lemma for closed tables. -/
theorem closedTableKeepsCursorLegal : Obligations.ClosedTableKeepsCursorLegal := fun _ hT _ hs =>
  stepWith_keeps_legal hT hs

/-- Settles O38: `TABLE_REF` is closed. -/
theorem stepKeepsCursorLegal : Obligations.StepKeepsCursorLegal := by
  intro s hs
  rw [step_eq_stepWith]
  exact stepWith_keeps_legal tableRef_closed hs

/-- What is shown at a legal cursor, with the index that the clauses of `WF` speak of. -/
theorem outputs_of_legal (T : Table) {s : State} (hs : s.Legal) :
    s.outputs T = some (T[(⟨s.cur.toNat, hs⟩ : Fin 13)]).outputs :=
  outputs_eq_some_iff.mpr ⟨_, row?_fin T hs, rfl⟩

/-- WF5, WF6 and WF9 are the three clauses of lamp safety, row by row. -/
theorem lampsSafe_of_wf {T : Table} (hT : T.WF) (n : Fin 13) : LampsSafe (T[n]).outputs := by
  obtain ⟨-, -, hgreens, hwalk, -, -, hlamps, -⟩ := hT
  exact ⟨hgreens n, hwalk n, hlamps n⟩

/-- Settles O41: the cursor stays legal along the run, and every row shows safe lamps. -/
theorem runsStaySafe : Obligations.RunsStaySafe := by
  intro T hT s n hs
  obtain ⟨t, hrun, ht⟩ := runSteps_of_invariant (fun _ => stepWith_keeps_legal hT.left) n s hs
  exact ⟨t, _, hrun, ht, outputs_of_legal T ht, lampsSafe_of_wf hT _⟩

/-- Settles O42: an idle edge keeps the lamps, and at an advance edge WF7 speaks of the row and its successor's row. -/
theorem greenEndsThroughYellow : Obligations.GreenEndsThroughYellow := by
  intro T hT s o hrst hout
  obtain ⟨hclosed, -, -, -, hcaution, -⟩ := hT
  obtain ⟨r, hrow, rfl⟩ := outputs_eq_some_iff.mp hout
  cases hadv : s.pins.advance with
  | false => exact ⟨_, _, stepWith_idle hrst hadv, hout, .inl, .inl⟩
  | true =>
    have hlegal : (s.passEdge.iterate r s.pins.inp).Legal := succ_lt_of_closed hclosed hrow s.pins.inp
    obtain ⟨n, -, rfl⟩ := row?_eq_some hrow
    exact ⟨_, _, stepWith_of_row hrst hadv hrow, outputs_of_legal T hlegal,
      hcaution n ⟨_, hlegal⟩ s.pins.inp rfl⟩

/-- A record that replays may be gone on with from the cursor it ends in. -/
theorem replay_append {T : Table} {c d : StateId} {xs : List Access} (h : replay T c xs = some d) (ys : List Access) :
    replay T c (xs ++ ys) = replay T d ys := by
  fun_induction replay T c xs with
  | case1 c => rw [List.nil_append, Option.some.inj h]
  | case2 c t p hold v n rest hok ih => simp [replay, hok, ih h]
  | case4 c t p rest hok ih => simp [replay, hok, ih h]
  | case6 c rest hok ih => simp [replay, hok, ih h]
  | case3 | case5 | case7 | case8 => cases h

/-- The four accesses of an iteration on the cursor's row replay to the successor. -/
theorem replay_iteration {T : Table} {c : StateId} {r : Row} (hrow : T.row? c = some r) (v : InVec) :
    replay T c [.present r.traffic r.walk, .wait r.hold, .inRead v, .curWrite (r.succ v)] = some (r.succ v) := by
  simp [replay, Table.out?, hrow, succ?_of_row hrow, Row.outputs]

/-- An abandoned iteration and its reset replay to `S_INIT` (R109). -/
theorem replay_abandoned {T : Table} {c : StateId} {r : Row} (hrow : T.row? c = some r) :
    replay T c [.present r.traffic r.walk, .reset] = some sInit := by
  simp [replay, Table.out?, hrow, Row.outputs]

/-- A reset that leaves a reserved identifier replays to `S_INIT` (R94). -/
theorem replay_reset_of_no_row {T : Table} {c : StateId} (hrow : T.row? c = none) :
    replay T c [.reset] = some sInit := by
  simp [replay, Table.out?, hrow]

/-- A trace that goes on from its cursor to the next cursor is a trace. -/
theorem traced_append {T : Table} {s t : State} {ys : List Access} (hs : s.Traced T)
    (hrecord : t.accesses = s.accesses ++ ys) (hys : replay T s.cur ys = some t.cur) : t.Traced T := by
  rw [State.Traced, hrecord, replay_append hs, hys]

/-- An edge adds nothing, an iteration or a reset to the record, and each of the three replays from the cursor to the next one. -/
theorem stepWith_keeps_traced {T : Table} {s t : State} (hs : s.Traced T) (hstep : stepWith T s = .next t) :
    t.Traced T := by
  obtain ⟨-, rfl⟩ | ⟨-, -, r, hrow, rfl⟩ | ⟨-, -, rfl⟩ := stepWith_next hstep
  · cases hrow : T.row? s.cur with
    | some r =>
      have hrecord := congrArg State.accesses (takeReset_of_row (s := s.passEdge) hrow)
      exact traced_append hs hrecord (replay_abandoned hrow)
    | none =>
      have hrecord := congrArg State.accesses (takeReset_of_no_row (s := s.passEdge) hrow)
      exact traced_append hs hrecord (replay_reset_of_no_row hrow)
  · exact traced_append hs (iterate_accesses s.passEdge r s.pins.inp) (replay_iteration hrow s.pins.inp)
  · exact hs

/-- Settles O40: the same step lemma for any table and for `TABLE_REF`. -/
theorem stepKeepsRecordATrace : Obligations.StepKeepsRecordATrace := by
  refine ⟨fun T s t => stepWith_keeps_traced, fun s t hs hstep => ?_⟩
  rw [step_eq_stepWith] at hstep
  exact stepWith_keeps_traced hs hstep

/-- Settles O39: the cursor is `S_INIT`, and the empty record replays to where it begins. -/
theorem resetIsLegalAndTraced : Obligations.ResetIsLegalAndTraced :=
  ⟨Nat.zero_lt_succ 12, fun _ => rfl⟩

end Sys2Proof.Machine
end

section
/-! Runs over announced edges without reset: the cursor follows the table from sample to sample (R56, R62, R77, R81, R87). -/

namespace Sys2Proof

/-- The fold of `NEXT` over the samples of the advance edges among `ps`, in order, from cursor `c` (R81). -/
def Table.follow (T : Table) (c : StateId) (ps : List Machine.Pins) : Option StateId :=
  (ps.filter (fun p => p.advance)).foldlM (fun c p => T.succ? c p.inp) c

@[simp] theorem follow_nil (T : Table) (c : StateId) : T.follow c [] = some c := rfl

theorem follow_cons_idle {T : Table} {c : StateId} {p : Machine.Pins} (h : p.advance = false)
    (ps : List Machine.Pins) : T.follow c (p :: ps) = T.follow c ps := by
  simp [Table.follow, h]

theorem follow_cons_advance {T : Table} {c : StateId} {p : Machine.Pins} (h : p.advance = true)
    (ps : List Machine.Pins) : T.follow c (p :: ps) = (T.succ? c p.inp).bind (fun n => T.follow n ps) := by
  simp [Table.follow, h]

theorem succ?_eq_some_iff {T : Table} {c : StateId} {v : InVec} {n : StateId} :
    T.succ? c v = some n ↔ ∃ r, T.row? c = some r ∧ r.succ v = n :=
  Option.map_eq_some_iff

/-- In a closed table every sequence of samples can be followed from a legal identifier. -/
theorem exists_follow {T : Table} (hT : T.Closed) {c : StateId} (hc : c.toNat < 13) (ps : List Machine.Pins) :
    ∃ d, T.follow c ps = some d := by
  induction ps generalizing c with
  | nil => exact ⟨c, follow_nil T c⟩
  | cons p ps ih =>
    cases hadv : p.advance with
    | false =>
      rw [follow_cons_idle hadv]
      exact ih hc
    | true =>
      have hrow := row?_of_lt T hc
      rw [follow_cons_advance hadv, succ?_of_row hrow, Option.bind_some]
      exact ih (succ_lt_of_closed hT hrow p.inp)

/-- Along `WALK, C1, ..., C7, DONT_WALK` the identifier counts the samples (WF8). -/
theorem follow_clearance {T : Table} (hT : T.Clearance) {c : StateId} (hlo : 4 ≤ c.toNat) {ps : List Machine.Pins}
    (hhi : c.toNat + ps.countP (fun p => p.advance) ≤ 12) :
    ∃ d, T.follow c ps = some d ∧ d.toNat = c.toNat + ps.countP (fun p => p.advance) := by
  induction ps generalizing c with
  | nil => exact ⟨c, follow_nil T c, rfl⟩
  | cons p ps ih =>
    rw [List.countP_cons] at hhi ⊢
    cases hadv : p.advance with
    | false =>
      rw [follow_cons_idle hadv]
      simp only [hadv, Bool.false_eq_true, if_false, Nat.add_zero] at hhi ⊢
      exact ih hlo hhi
    | true =>
      simp only [hadv, if_true] at hhi ⊢
      have hrow := row?_of_lt T (s := c) (by omega)
      have hnext := succ_of_clearance hT hrow hlo (by omega) p.inp
      rw [follow_cons_advance hadv, succ?_of_row hrow, Option.bind_some]
      obtain ⟨d, hd, hcount⟩ := ih (c := (T[c.toNat]).succ p.inp) (by omega) (by omega)
      exact ⟨d, hd, by omega⟩

/-- State number `n`, counted round the ring of the four vehicle states (R56). -/
def ring? (n : Nat) : Option StateId := [idGoW, idWaitW, idGoS, idWaitS][n % 4]?

theorem exists_ring (n : Nat) : ∃ c, ring? n = some c :=
  ⟨_, List.getElem?_eq_getElem (Nat.mod_lt n (by decide))⟩

/-- The pinned cells lead round the ring at input 0 (R85). -/
theorem succ?_ring {T : Table} (hT : T.PinnedVehicle) {n : Nat} {c : StateId} (hc : ring? n = some c) :
    T.succ? c 0 = ring? (n + 1) := by
  obtain ⟨hgoW, -, -, hwaitW, -, hgoS, hwaitS⟩ := hT
  obtain h | h | h | h : n % 4 = 0 ∨ n % 4 = 1 ∨ n % 4 = 2 ∨ n % 4 = 3 := by omega
  all_goals
    simp only [ring?, Nat.add_mod n 1, h] at hc ⊢
    obtain rfl := Option.some.inj hc
    assumption

/-- An edge that takes a sample with no sensor active. -/
def quietSample : Machine.Pins := ⟨false, true, 0⟩

theorem follow_ring {T : Table} (hT : T.PinnedVehicle) (n : Nat) {m : Nat} {c : StateId} (hc : ring? m = some c) :
    T.follow c (List.replicate n quietSample) = ring? (m + n) := by
  induction n generalizing m c with
  | zero => exact hc.symm
  | succ n ih =>
    obtain ⟨d, hd⟩ := exists_ring (m + 1)
    have hsucc : T.succ? c quietSample.inp = some d := (succ?_ring hT hc).trans hd
    rw [List.replicate_succ, follow_cons_advance rfl, hsucc, Option.bind_some, ih hd, Nat.add_assoc, Nat.add_comm 1]

end Sys2Proof

namespace Sys2Proof.Machine

/-- The number of cursor writes in the record. -/
def State.curWrites (s : State) : Nat := s.accesses.countP Access.isCurWrite

@[simp] theorem passEdge_curWrites (s : State) : s.passEdge.curWrites = s.curWrites := rfl

/-- An iteration writes the cursor once. -/
@[simp] theorem iterate_curWrites (s : State) (r : Row) (v : InVec) :
    (s.iterate r v).curWrites = s.curWrites + 1 := by
  simp [State.curWrites, Access.isCurWrite]

/-- Over announced edges without reset the cursor is the fold of `NEXT` over the samples, wherever the fold is defined, and the record
gains one cursor write for each sample. -/
theorem runSteps_follow {T : Table} {ps rest : List Pins} {s : State} {d : StateId} (hstim : s.stimulus = ps ++ rest)
    (hrst : ∀ p ∈ ps, p.rst = false) (hfollow : T.follow s.cur ps = some d) :
    ∃ t, runSteps (stepWith T) ps.length s = .next t ∧ t.cur = d ∧
      t.curWrites = s.curWrites + ps.countP (fun p => p.advance) := by
  induction ps generalizing s with
  | nil => exact ⟨s, rfl, Option.some.inj hfollow, rfl⟩
  | cons p ps ih =>
    rw [List.forall_mem_cons] at hrst
    obtain ⟨hp, hps⟩ := hrst
    obtain rfl : s.pins = p := pins_of_cons hstim
    have htail : s.passEdge.stimulus = ps ++ rest := congrArg List.tail hstim
    rw [List.countP_cons]
    cases hadv : s.pins.advance with
    | false =>
      rw [follow_cons_idle hadv] at hfollow
      obtain ⟨t, hrun, hcur, hwrites⟩ := ih htail hps hfollow
      exact ⟨t, (runSteps_succ (stepWith_idle hp hadv) _).trans hrun, hcur, by simpa using hwrites⟩
    | true =>
      rw [follow_cons_advance hadv] at hfollow
      obtain ⟨n, hsucc, hrest⟩ := Option.bind_eq_some_iff.mp hfollow
      obtain ⟨r, hrow, rfl⟩ := succ?_eq_some_iff.mp hsucc
      obtain ⟨t, hrun, hcur, hwrites⟩ := ih (s := s.passEdge.iterate r s.pins.inp) htail hps hrest
      rw [iterate_curWrites, passEdge_curWrites] at hwrites
      refine ⟨t, (runSteps_succ (stepWith_of_row hp hadv hrow) _).trans hrun, hcur, ?_⟩
      rw [hwrites, if_pos rfl, Nat.add_assoc, Nat.add_comm 1]

/-- Settles O47: a closed table can be followed along all samples. -/
theorem oneTransitionPerAdvance : Obligations.OneTransitionPerAdvance := by
  intro T hT ps rest s hs hstim hrst
  obtain ⟨d, hd⟩ := exists_follow hT hs ps
  obtain ⟨t, hrun, rfl, hwrites⟩ := runSteps_follow hstim hrst hd
  exact ⟨t, hrun, hd, hwrites⟩

/-- Settles O43: `WALK` is 4, and from there the identifier counts the samples up to 12. -/
theorem boundedClearance : Obligations.BoundedClearance := by
  intro T hT s ps rest hcur hstim hrst hk
  obtain ⟨-, -, -, -, -, hclearance, -, -⟩ := hT
  have hwalk : s.cur.toNat = 4 := congrArg BitVec.toNat hcur
  obtain ⟨d, hd, hcount⟩ := follow_clearance hclearance (Nat.le_of_eq hwalk.symm) (ps := ps) (by omega)
  obtain ⟨t, hrun, rfl, -⟩ := runSteps_follow hstim hrst hd
  exact ⟨t, hrun, by rw [hcount, hwalk]⟩

/-- From `GO_W` a run of quiet samples goes round the ring, under any table with the pinned cells. -/
theorem runSteps_ring {T : Table} (hT : T.PinnedVehicle) {n : Nat} {s : State} {rest : List Pins} (hcur : s.cur = idGoW)
    (hstim : s.stimulus = List.replicate n quietSample ++ rest) :
    ∃ t, runSteps (stepWith T) n s = .next t ∧ ring? n = some t.cur := by
  have hfollow : T.follow s.cur (List.replicate n quietSample) = ring? n := by
    rw [follow_ring hT n (m := 0) (congrArg some hcur.symm), Nat.zero_add]
  obtain ⟨d, hd⟩ := exists_ring n
  have hrst : ∀ p ∈ List.replicate n quietSample, p.rst = false := fun p hp => List.eq_of_mem_replicate hp ▸ rfl
  obtain ⟨t, hrun, rfl, -⟩ := runSteps_follow hstim hrst (hfollow.trans hd)
  exact ⟨t, by simpa using hrun, hd⟩

/-- Settles O44: `TABLE_REF` has the pinned cells, so `step` goes round the ring as `stepWith` does. -/
theorem defaultCycle : Obligations.DefaultCycle := by
  refine ⟨by decide, fun n s rest hcur hstim => ⟨?_, fun T hT => runSteps_ring hT.left hcur hstim⟩⟩
  rw [step_eq_stepWith]
  exact runSteps_ring tableRef_pin.left hcur hstim

/-- Samples that lead from reset to an identifier: the ring for the vehicle states, and for the others a request that is served in
`WAIT_W` and the countdown. -/
def samplesTo (c : StateId) : List Pins :=
  if c.toNat < 4 then List.replicate c.toNat quietSample
  else quietSample :: List.replicate (c.toNat - 3) ⟨false, true, 4⟩

theorem follow_samplesTo {c : StateId} (hc : c.toNat < 13) : tableRef.follow sInit (samplesTo c) = some c := by
  revert c; decide

theorem samplesTo_rst {c : StateId} : ∀ p ∈ samplesTo c, p.rst = false := by
  revert c; decide

/-- Settles O49: the fold of `NEXT` over the samples ends in the identifier, and the run ends where the fold does. -/
theorem everyStateIsReachable : Obligations.EveryStateIsReachable := by
  intro c hc
  rw [step_eq_stepWith]
  obtain ⟨t, hrun, hcur, -⟩ := runSteps_follow (s := { State.reset with stimulus := samplesTo c })
    (List.append_nil _).symm samplesTo_rst (follow_samplesTo hc)
  exact ⟨samplesTo c, t, samplesTo_rst, hrun, hcur⟩

end Sys2Proof.Machine
end

section
/-! What a hold and a reset leave (R76, R78, R105, R108 to R110). -/

namespace Sys2Proof.Machine

/-- A hold: announced edges without reset and advance use up their levels and change nothing else, under any table. -/
theorem runSteps_hold (T : Table) {ps rest : List Pins} {s : State} (hstim : s.stimulus = ps ++ rest)
    (hidle : ∀ p ∈ ps, p.rst = false ∧ p.advance = false) :
    runSteps (stepWith T) ps.length s = .next { s with stimulus := rest, edge := s.edge + ps.length } := by
  induction ps generalizing s with
  | nil =>
    obtain rfl : s.stimulus = rest := hstim
    rfl
  | cons p ps ih =>
    rw [List.forall_mem_cons] at hidle
    obtain ⟨⟨hrst, hadv⟩, hps⟩ := hidle
    obtain rfl : s.pins = p := pins_of_cons hstim
    have htail : s.passEdge.stimulus = ps ++ rest := congrArg List.tail hstim
    rw [List.length_cons, runSteps_succ (stepWith_idle hrst hadv), ih htail hps, passEdge_edge, Nat.add_assoc,
      Nat.add_comm 1]
    rfl

/-- Settles O46: the edges are a hold. -/
theorem sensorEventsBetweenSamplesAreInvisible : Obligations.SensorEventsBetweenSamplesAreInvisible := by
  intro ps rest s hstim hidle
  rw [step_eq_stepWith]
  exact runSteps_hold tableRef hstim hidle

/-- What a reset leaves, whatever the state was before: the cursor is `S_INIT`, and the last thing recorded is the reset. -/
def State.JustReset (s : State) : Prop := s.cur = sInit ∧ s.accesses.getLast? = some .reset

theorem takeReset_justReset (T : Table) (s : State) : (s.takeReset T).JustReset := by
  refine ⟨takeReset_cur T s, ?_⟩
  rw [takeReset_accesses, List.getLast?_concat]

/-- One or more reset edges end as one does. -/
theorem runSteps_reset (T : Table) {q : Pins} {qs rest : List Pins} {s : State} (hstim : s.stimulus = q :: qs ++ rest)
    (hrst : ∀ p ∈ q :: qs, p.rst = true) :
    ∃ r, runSteps (stepWith T) (q :: qs).length s = .next r ∧ r.JustReset ∧ r.stimulus = rest ∧
      r.edge = s.edge + (q :: qs).length := by
  induction qs generalizing q s with
  | nil =>
    obtain rfl : s.pins = q := pins_of_cons hstim
    have hstep := stepWith_rst (T := T) (hrst s.pins List.mem_cons_self)
    exact ⟨_, runSteps_succ hstep 0, takeReset_justReset T s.passEdge,
      (takeReset_stimulus T s.passEdge).trans (congrArg List.tail hstim), takeReset_edge T s.passEdge⟩
  | cons q' qs ih =>
    obtain rfl : s.pins = q := pins_of_cons hstim
    rw [List.forall_mem_cons] at hrst
    obtain ⟨hfirst, hlater⟩ := hrst
    have htail : (s.passEdge.takeReset T).stimulus = q' :: qs ++ rest :=
      (takeReset_stimulus T s.passEdge).trans (congrArg List.tail hstim)
    obtain ⟨r, hrun, hreset, hrest, hedge⟩ := ih htail hlater
    refine ⟨r, (runSteps_succ (stepWith_rst hfirst) _).trans hrun, hreset, hrest, ?_⟩
    rw [hedge, takeReset_edge, passEdge_edge, List.length_cons (a := s.pins), Nat.add_assoc, Nat.add_comm 1]

/-- An advance edge in `GO_W` is its iteration (R58). -/
theorem stepWith_goW {s : State} {v : InVec} {rest : List Pins} (hcur : s.cur = idGoW)
    (hstim : s.stimulus = ⟨false, true, v⟩ :: rest) :
    stepWith tableRef s = .next
      { cur := if inW v then idGoW else idWaitW,
        stimulus := rest,
        edge := s.edge + 1,
        accesses := s.accesses ++ [.present 0b001100 0b01, .wait 300, .inRead v,
                                   .curWrite (if inW v then idGoW else idWaitW)] } := by
  have hpins : s.pins = ⟨false, true, v⟩ := pins_of_cons hstim
  have hrow : tableRef.row? s.cur = some rowGoW := hcur ▸ rfl
  have htail : s.passEdge.stimulus = rest := congrArg List.tail hstim
  rw [stepWith_of_row (by rw [hpins]) (by rw [hpins]) hrow, iterate_eq, hpins, rowGoW_succ, htail]
  rfl

/-- Settles O48: the resets lead to `GO_W`, the hold keeps the state, and the advance edge is the iteration of `GO_W`. -/
theorem firstIterationAfterReset : Obligations.FirstIterationAfterReset := by
  intro s q qs ps rest v hstim hrst hidle
  rw [step_eq_stepWith]
  obtain ⟨r, hreset, ⟨hcur, hlast⟩, hrest, hedge⟩ := runSteps_reset tableRef hstim hrst
  have hhold := runSteps_hold tableRef hrest hidle
  have hgoW := stepWith_goW (s := { r with stimulus := ⟨false, true, v⟩ :: rest, edge := r.edge + ps.length }) hcur rfl
  refine ⟨r, hreset, hcur, hlast, ?_⟩
  rw [runSteps_add hreset, runSteps_add hhold, runSteps_succ hgoW 0, runSteps_zero, hedge]
  simp only [Nat.add_assoc]

end Sys2Proof.Machine
end

section
/-! After a reset nothing depends on what was before it (R26, R105). -/

namespace Sys2Proof.Machine

/-- The levels of the pins come from the announced levels and the edge count. -/
theorem pins_congr {s u : State} (hstim : s.stimulus = u.stimulus) (hedge : s.edge = u.edge) : s.pins = u.pins := by
  simp only [State.pins, hstim, hedge]

/-- Whatever an edge does, it uses up one announced level and counts. -/
theorem step_passes_edge {s t : State} (h : step s = .next t) : t.stimulus = s.stimulus.tail ∧ t.edge = s.edge + 1 := by
  rw [step_eq_stepWith] at h
  obtain ⟨-, rfl⟩ | ⟨-, -, r, -, rfl⟩ | ⟨-, -, rfl⟩ := stepWith_next h
  · exact ⟨takeReset_stimulus _ _, takeReset_edge _ _⟩
  · exact ⟨iterate_stimulus _ _ _, iterate_edge _ _ _⟩
  · exact ⟨rfl, rfl⟩

/-- What a state's future depends on is equal, and the cursor is legal. -/
def SameFuture (s u : State) : Prop :=
  s.Legal ∧ s.cur = u.cur ∧ s.stimulus = u.stimulus ∧ s.edge = u.edge

/-- Two steps from states with the same future: both answer, and the futures are the same again. -/
theorem step_sameFuture {s u : State} (h : SameFuture s u) :
    ∃ t t', step s = .next t ∧ step u = .next t' ∧ SameFuture t t' := by
  obtain ⟨hlegal, hcur, hstim, hedge⟩ := h
  obtain ⟨t, ht, htlegal⟩ := stepKeepsCursorLegal s hlegal
  obtain ⟨t', ht', hcur'⟩ := (stepReadsOnlyCursorAndPins s u hcur (pins_congr hstim hedge)).left t ht
  obtain ⟨htstim, htedge⟩ := step_passes_edge ht
  obtain ⟨hustim, huedge⟩ := step_passes_edge ht'
  exact ⟨t, t', ht, ht', htlegal, hcur'.symm, by rw [htstim, hustim, hstim], by rw [htedge, huedge, hedge]⟩

theorem runSteps_sameFuture (n : Nat) {s u : State} (h : SameFuture s u) :
    ∃ t t', runSteps step n s = .next t ∧ runSteps step n u = .next t' ∧ SameFuture t t' := by
  induction n generalizing s u with
  | zero => exact ⟨s, u, rfl, rfl, h⟩
  | succ n ih =>
    obtain ⟨s', u', hs, hu, h'⟩ := step_sameFuture h
    obtain ⟨t, t', ht, ht', hend⟩ := ih h'
    exact ⟨t, t', (runSteps_succ hs n).trans ht, (runSteps_succ hu n).trans ht', hend⟩

/-- A reset at the same edge gives any two states the same future. -/
theorem takeReset_sameFuture (T : Table) {s u : State} (hstim : s.stimulus = u.stimulus) (hedge : s.edge = u.edge) :
    SameFuture (s.passEdge.takeReset T) (u.passEdge.takeReset T) := by
  refine ⟨Nat.zero_lt_succ 12, rfl, ?_, ?_⟩
  · simp [hstim]
  · simp [hedge]

theorem step_rst {s : State} (h : s.pins.rst = true) : step s = .next (s.passEdge.takeReset tableRef) :=
  risingEdge_rst h

/-- Settles O31: both reset edges lead to `S_INIT`, and from there the futures are the same. -/
theorem resetForgetsThePast : Obligations.ResetForgetsThePast := by
  intro n s u hrst hstim hedge
  have hrst' : u.pins.rst = true := pins_congr hstim hedge ▸ hrst
  obtain ⟨t, t', ht, ht', -, hcur, -⟩ := runSteps_sameFuture n (takeReset_sameFuture tableRef hstim hedge)
  exact ⟨t, t', (runSteps_succ (step_rst hrst) n).trans ht, (runSteps_succ (step_rst hrst') n).trans ht', hcur⟩

end Sys2Proof.Machine
end
